-- ==== Sys2Proof/Word.lean ====
section
/-! DEFINITION. The word types of the block: 10_state.md R20 (widths), 20_memory.md R50 (word index). -/

namespace Sys2Proof

/-- A data value: 64 bits, unsigned (00_scope.md R7, parameter `W`). -/
abbrev Word := BitVec 64

/-- A host word index: 9 bits (20_memory.md R50, parameter `AW`). -/
abbrev WordIndex := BitVec 9

/-- A 4-bit register or field: `ROW`, `WI` (10_state.md R31, R32), `ERR` (R36). -/
abbrev Nibble := BitVec 4

/-- A 3-bit opcode (30_encoding.md R80). -/
abbrev Opcode := BitVec 3

end Sys2Proof
end

