-- ==== Sys2Proof/Syntax.lean ====
section
/-! DEFINITION. The six commands (30_encoding.md R81), one constructor per row of spec/opcode_table.json. -/

namespace Sys2Proof

/-- A command of the block. No command has an operand field: each takes its operands from fixed registers
(30_encoding.md R80, R82; 10_state.md R41). -/
inductive Instr where
  /-- `R <- (A × D) mod N` (40_mulmod.md R104). -/
  | mulmod
  /-- `R <- A^D mod N` (41_modexp.md R115). -/
  | modexp
  /-- `V <- wtest(N, S, D, A)` (42_witness.md R133). -/
  | wtest
  /-- `(S, D) <- decomp(N)` (43_sieve.md R156). -/
  | decomp
  /-- `ROW <- wsel(N)` and `WI <- 0` (43_sieve.md R157). -/
  | wsel
  /-- `V <- isprime(N)` (43_sieve.md R158). -/
  | isprime
  deriving DecidableEq, Repr

/-- The six commands in opcode order. -/
def Instr.all : List Instr := [.mulmod, .modexp, .wtest, .decomp, .wsel, .isprime]

end Sys2Proof
end

