-- ==== Sys2Proof/WellFormed.lean ====
section
/-! DEFINITION. Well-formedness: of a command term, and of a raw 64-bit command word (30_encoding.md R80, R83). -/

namespace Sys2Proof

/-- A command has no fields (30_encoding.md R80: "no register field, no immediate field, no function field and no
mode field"), so there is nothing that could be ill formed in one. -/
def Instr.wf : Instr → Bool
  | .mulmod | .modexp | .wtest | .decomp | .wsel | .isprime => true

/-- The `zero` field, bits 63:3, is all zero (30_encoding.md R80). -/
def wordZeroFieldOk (w : Word) : Bool := w.extractLsb 63 3 == 0

/-- The `opcode` field, bits 2:0, is neither 0 nor 7 (30_encoding.md R81, R83). -/
def wordOpcodeOk (w : Word) : Bool := w.extractLsb 2 0 != 0 && w.extractLsb 2 0 != 7

/-- A command word is legal (30_encoding.md R83). -/
def wordWf (w : Word) : Bool := wordZeroFieldOk w && wordOpcodeOk w

end Sys2Proof
end

