-- ==== Sys2Proof/Decode.lean ====
section
/-! DEFINITION. Decoding a 64-bit command word (30_encoding.md R80, R81, R83), and the encoder beside it. -/

namespace Sys2Proof

/-- The `opcode` field, bits 2:0 (30_encoding.md R80). -/
def opcodeField (w : Word) : Opcode := w.extractLsb' 0 3

/-- The `zero` field, bits 63:3 (30_encoding.md R80). -/
def zeroField (w : Word) : BitVec 61 := w.extractLsb' 3 61

/-- The opcode map (30_encoding.md R81): six of the eight values are commands. -/
def instrOfOpcode (op : Opcode) : Option Instr :=
  match op.toNat with
  | 1 => some .mulmod
  | 2 => some .modexp
  | 3 => some .wtest
  | 4 => some .decomp
  | 5 => some .wsel
  | 6 => some .isprime
  | _ => none

/-- The command a word written to `CMD` stands for; `none` is an illegal word, which raises `ILLEGAL_CMD`
(30_encoding.md R83, R90 line 1). -/
def decode (w : Word) : Option Instr :=
  if zeroField w = 0 then instrOfOpcode (opcodeField w) else none

/-- A command's opcode (30_encoding.md R81). -/
def Instr.opcode : Instr → Opcode
  | .mulmod => 1
  | .modexp => 2
  | .wtest => 3
  | .decomp => 4
  | .wsel => 5
  | .isprime => 6

/-- The command word of a command: the opcode in bits 2:0 under a zero field (30_encoding.md R80). -/
def encode (i : Instr) : Word := (0#61 ++ i.opcode : BitVec 64)

/-- The instruction the decoder reads from an opcode-table word of `nbits` bits (the host's name). The one
command length is 64 bits (30_encoding.md R80); bits above `nbits` are 0, and no value of more than 64 bits
can be written to `CMD` (log 16). -/
def decodeTableWord (nbits w : Nat) : Option Instr :=
  let value := w % 2 ^ nbits
  if value < 2 ^ 64 then decode (BitVec.ofNat 64 value) else none

end Sys2Proof
end

