-- ==== Sys2Proof/Machine/State.lean ====
section
/-! DEFINITION. The state of the block (10_state.md R20, all 18 items) and of an execution; the ways a step can stop;
the state after reset (10_state.md R45). -/

namespace Sys2Proof.Machine

/-- The controller states (10_state.md R34; 30_encoding.md R85). -/
inductive Ctl where
  | idle | mmRun | meInit | meTest | meMul | meSqr | wtLoad | wtSqr | wtChk | wtFin
  | svQuick | svDec0 | svDec | svSel0 | svScan | svWit | svNext | fault
  deriving DecidableEq, Repr

/-- An event of an execution (00_scope.md R12): a host transaction, a controller `Tick`, or the host's `WAIT`
(30_encoding.md R88). -/
inductive Event where
  /-- `HostRead(addr)` (20_memory.md R54). -/
  | read (addr : WordIndex)
  /-- `HostWrite(addr, v)` (20_memory.md R55). -/
  | write (addr : WordIndex) (v : Word)
  /-- `Reset` (70_reset_and_hazards.md R230). -/
  | reset
  /-- `Tick` (00_scope.md R12). -/
  | tick
  /-- `WAIT`: repeat `HostRead(0x001)` until bit 0 reads 0 (30_encoding.md R88; log 3). -/
  | wait
  deriving DecidableEq, Repr

/-- The state. The first 18 fields are the block's (10_state.md R20), under the spec's names; the last three are the
model's own and belong to the execution, not to the block (log 1, log 4, log 5). -/
structure State where
  /-- `N`, alias `M` (10_state.md R21). -/
  n : Word
  /-- `A` (10_state.md R22). -/
  a : Word
  /-- `D`, aliases `E` and `B` (10_state.md R23). -/
  d : Word
  /-- `S` (10_state.md R24). -/
  s : Word
  /-- `R` (10_state.md R25). -/
  r : Word
  /-- `X` (10_state.md R26). -/
  x : Word
  /-- `Y` (10_state.md R27). -/
  y : Word
  /-- `BASE` (10_state.md R28). -/
  base : Word
  /-- `EXP` (10_state.md R29). -/
  exp : Word
  /-- `CNT` (10_state.md R30). -/
  cnt : Word
  /-- `ROW` (10_state.md R31). -/
  row : Nibble
  /-- `WI` (10_state.md R32). -/
  wi : Nibble
  /-- `OP` (10_state.md R33). -/
  op : Opcode
  /-- `ST`, in place of a program counter (10_state.md R34). -/
  st : Ctl
  /-- `DONE` (10_state.md R35). -/
  done : Bool
  /-- `V`, the verdict (10_state.md R35). -/
  v : Bool
  /-- `OVR`, sticky (10_state.md R35). -/
  ovr : Bool
  /-- `ERR`, the sticky fault code (10_state.md R36). -/
  err : Nibble
  /-- The events still to come, first one first: the interleaving that 10_state.md R42 calls a parameter of an
  execution (log 1). -/
  pending : List Event
  /-- The values that the host's reads have returned, newest first (log 5). -/
  reads : List Word
  /-- How many unspecified values have been drawn (20_memory.md R54 case (e); log 4). -/
  draws : Nat
  deriving DecidableEq, Repr

/-- Why the MODEL stops. These are not the block's faults (60_exceptions.md R200), which are next states with `ERR` set
(log 10); each names a value that the rules give no value to and say is never evaluated (log 6). A stop is SAFE: nothing
is claimed of what the hardware would do there. No state that meets `State.Inv` raises one. -/
inductive Fault where
  /-- `mulmod(a, b, 0)` or `1 mod 0` would be evaluated (40_mulmod.md R103, R106 clause (b)). Raised by the controller
  states `MM_RUN`, `ME_INIT`, `ME_MUL`, `ME_SQR`, `WT_SQR` with `N = 0`. Safe. -/
  | zeroModulusEvaluated
  /-- `N − 1` or `CNT − 1` would be evaluated at 0 (40_mulmod.md R106 clause (d)). Raised by `WT_CHK` and `SV_DEC0`. Safe. -/
  | subtractionBelowZero
  /-- A sum would not fit its register: `S + 1`, `ROW + 1`, `WI + 1` (40_mulmod.md R106 clause (e)). Raised by `SV_DEC`
  and `SV_NEXT`. Safe. -/
  | sumTooWide
  /-- A ROM read outside the table (20_memory.md R60; U12). Raised by `SV_SCAN`, `SV_WIT` and `SV_NEXT`. Safe. -/
  | romOutOfRange
  deriving DecidableEq, Repr

/-- Why the model has no meaning for an instruction. -/
inductive Refusal where
  /-- Raised by `exec` for a row of the opcode table that has no meaning yet; none is left. Safe. -/
  | notModelled (mnemonic : String)
  deriving DecidableEq, Repr

/-- The state right after `Reset` (10_state.md R45; 70_reset_and_hazards.md R231), with no event pending, nothing read
and nothing drawn (log 1, log 4, log 5). -/
def State.reset : State where
  n := 0
  a := 0
  d := 0
  s := 0
  r := 0
  x := 0
  y := 0
  base := 0
  exp := 0
  cnt := 0
  row := 0
  wi := 0
  op := 0
  st := .idle
  done := false
  v := false
  ovr := false
  err := 0
  pending := []
  reads := []
  draws := 0

/-- What a step or a meaning answers. -/
abbrev Result := Host.Outcome State Fault Refusal

end Sys2Proof.Machine
end

