-- ==== Sys2Proof/Machine/Ops.lean ====
section
/-! DEFINITION. The operations every command shares: checked arithmetic (40_mulmod.md R106), the gate of a host write
(20_memory.md R55), acceptance (30_encoding.md R90 line 5), completion (43_sieve.md R166), taking a fault
(60_exceptions.md R208) and the only way out of one, reset (70_reset_and_hazards.md R231). -/

namespace Sys2Proof.Machine

/-! ## Values that may not exist -/

/-- Go on with a value, or stop by name where the rules give none (log 6). -/
def orStop {α : Type} (value : Option α) (why : Fault) (go : α → Result) : Result :=
  match value with
  | some v => go v
  | none => .fault why

/-- Exact product, then remainder, for `m ≥ 1` (40_mulmod.md R100, R101: the product is a natural number, never cut to
64 bits). Everything that calls it has checked `m ≥ 1`. -/
def mulRem (a b m : Word) : Word := BitVec.ofNat 64 (a.toNat * b.toNat % m.toNat)

/-- `mulmod(a, b, m)` (40_mulmod.md R100); no value for `m = 0` (R103). -/
def mulmod (a b m : Word) : Option Word := if m = 0 then none else some (mulRem a b m)

/-- `1 mod m`, for `m ≥ 1` (41_modexp.md R111: 0 when `m = 1`, else 1). -/
def oneRem (m : Word) : Word := BitVec.ofNat 64 (1 % m.toNat)

/-- `1 mod m`; "`1 mod 0` has no value" (41_modexp.md R122). -/
def oneMod (m : Word) : Option Word := if m = 0 then none else some (oneRem m)

/-- `v − 1`, for `v ≥ 1` only (40_mulmod.md R106 clause (d); 00_scope.md R9: no rule wraps). -/
def predecessor (v : Word) : Option Word := if v = 0 then none else some (v - 1)

/-- `v + 1`, where it fits the register (40_mulmod.md R106 clause (e); 00_scope.md R9). -/
def successor {w : Nat} (v : BitVec w) : Option (BitVec w) :=
  if v.toNat + 1 < 2 ^ w then some (v + 1) else none

/-- `v >> 1`: the logical right shift by one place (00_scope.md R9). -/
def half (v : Word) : Word := v >>> 1

/-- `v[0] = 1` (00_scope.md R9: "odd"). -/
def isOdd (v : Word) : Bool := v.getLsbD 0

/-! ## The command protocol -/

/-- `BUSY`: `ST` is none of `IDLE` and `FAULT` (10_state.md R37). -/
def State.busy (s : State) : Bool :=
  match s.st with
  | .idle | .fault => false
  | _ => true

/-- The gate of every host write (20_memory.md R55): in `FAULT` the write is dropped and nothing changes (a); while
`BUSY = 1` it is dropped and `OVR <- 1` (b); when `ST = IDLE` it takes its effect (c) to (e). -/
def whenIdle (s : State) (effect : State) : State :=
  match s.st with
  | .idle => effect
  | .fault => s
  | _ => { s with ovr := true }

/-- The fault codes (60_exceptions.md R200; 30_encoding.md R86). -/
def illegalCmd : Nibble := 1
/-- `ZERO_MODULUS` (60_exceptions.md R202). -/
def zeroModulus : Nibble := 2
/-- `ZERO_S` (60_exceptions.md R203). -/
def zeroS : Nibble := 3
/-- `DECOMP_DOMAIN` (60_exceptions.md R204). -/
def decompDomain : Nibble := 4

/-- Taking a fault, `raise Fault(code)` (60_exceptions.md R208): `ERR <- code`, `ST <- FAULT`, `DONE <- 0`; nothing is
saved and nothing else changes. -/
def State.raiseFault (s : State) (code : Nibble) : State :=
  { s with err := code, st := .fault, done := false }

/-- The effect of `Reset`, the only return from a fault (60_exceptions.md R211; 70_reset_and_hazards.md R230, R231):
every item of the block's state takes its reset value, whatever it was. The events still to come and what the host
has read are the execution's, not the block's, and stay (log 9). -/
def State.resetBlock (s : State) : State :=
  { State.reset with pending := s.pending, reads := s.reads, draws := s.draws }

/-- The entry state of a command (30_encoding.md R82, last column). -/
def entryState : Instr → Ctl
  | .mulmod => .mmRun
  | .modexp => .meInit
  | .wtest => .meInit
  | .decomp => .svDec0
  | .wsel => .svSel0
  | .isprime => .svQuick

/-- Accepting a command (30_encoding.md R90 line 5): `OP <- op`, `DONE <- 0`, `ST <- entry state`; nothing else. -/
def State.accept (s : State) (i : Instr) : State :=
  { s with op := i.opcode, done := false, st := entryState i }

/-- `finish`, which ends every command (43_sieve.md R166): `DONE <- 1`, `ST <- IDLE`; nothing else. -/
def State.finish (s : State) : State := { s with done := true, st := .idle }

/-- `ST <- target` (00_scope.md R10). -/
def State.goto (s : State) (target : Ctl) : State := { s with st := target }

/-- `wt_exit(v)` (42_witness.md R138): `V <- v`; then `finish` for the `WTEST` command (`OP = 3`), else back to the
sieve at `SV_NEXT`. -/
def State.wtExit (s : State) (verdict : Bool) : State :=
  if s.op = 3 then { s with v := verdict }.finish else { s with v := verdict }.goto .svNext

end Sys2Proof.Machine
end

