-- ==== Sys2Proof/Machine/Modexp.lean ====
section
/-! DEFINITION. MODEXP (41_modexp.md): the function, the command, and the engine's four controller states. -/

namespace Sys2Proof.Machine

/-- The square-and-multiply loop (41_modexp.md R112), on `result`, `base`, `exponent`; `fuel` bounds the iterations,
and 64 are always enough (R114). -/
def modexpLoop (modulus : Word) : Nat → Word → Word → Word → Word
  | 0, result, _, _ => result
  | fuel + 1, result, base, exponent =>
    if exponent = 0 then result
    else modexpLoop modulus fuel (if isOdd exponent then mulRem result base modulus else result)
      (mulRem base base modulus) (half exponent)

/-- `modexp`, for `modulus ≥ 1` (41_modexp.md R112); the initial result is `1 mod modulus` (R111). -/
def modexpRem (base exponent modulus : Word) : Word := modexpLoop modulus 64 (oneRem modulus) base exponent

/-- `modexp(base, exponent, modulus)` (41_modexp.md R110); no value for `modulus = 0` (R122). -/
def modexp (base exponent modulus : Word) : Option Word :=
  if modulus = 0 then none else some (modexpRem base exponent modulus)

/-- `MODEXP` (41_modexp.md R115), its acceptance (30_encoding.md R90): `ZERO_MODULUS` when `N = 0`, whatever `D` is
(R122), else accepted into `ME_INIT`, where the engine starts (log 7). -/
def execModexp (s : State) : Result :=
  .next (whenIdle s (if s.n = 0 then s.raiseFault zeroModulus else s.accept .modexp))

/-- State `ME_INIT` (41_modexp.md R116): `R <- 1 mod N`; `BASE <- A`, unreduced; `EXP <- D`; `ST <- ME_TEST`. -/
def tickMeInit (s : State) : Result :=
  orStop (oneMod s.n) .zeroModulusEvaluated fun one =>
    .next ({ s with r := one, base := s.a, exp := s.d }.goto .meTest)

/-- State `ME_TEST` (41_modexp.md R117): done when `EXP = 0` (`finish` if `OP = 2`, else on to `WT_LOAD`); else `ME_MUL`
for an odd `EXP`, `ME_SQR` for an even one. -/
def tickMeTest (s : State) : Result :=
  .next (if s.exp = 0 then (if s.op = 2 then s.finish else s.goto .wtLoad)
    else if isOdd s.exp then s.goto .meMul else s.goto .meSqr)

/-- State `ME_MUL` (41_modexp.md R118): `R <- mulmod(R, BASE, N)`; `ST <- ME_SQR`. -/
def tickMeMul (s : State) : Result :=
  orStop (mulmod s.r s.base s.n) .zeroModulusEvaluated fun p => .next ({ s with r := p }.goto .meSqr)

/-- State `ME_SQR` (41_modexp.md R119): `BASE <- mulmod(BASE, BASE, N)`; `EXP <- EXP >> 1`; `ST <- ME_TEST`. -/
def tickMeSqr (s : State) : Result :=
  orStop (mulmod s.base s.base s.n) .zeroModulusEvaluated fun p =>
    .next ({ s with base := p, exp := half s.exp }.goto .meTest)

end Sys2Proof.Machine
end

