-- ==== Sys2Proof/Machine/Mulmod.lean ====
section
/-! DEFINITION. MULMOD (40_mulmod.md): the command and its controller state. The function is `mulmod` of Ops.lean. -/

namespace Sys2Proof.Machine

/-- `MULMOD` (40_mulmod.md R104), its acceptance (30_encoding.md R90): `ZERO_MODULUS` when `N = 0`, else accepted into
`MM_RUN`, whose `Tick` computes the product (log 7). -/
def execMulmod (s : State) : Result :=
  .next (whenIdle s (if s.n = 0 then s.raiseFault zeroModulus else s.accept .mulmod))

/-- State `MM_RUN` (40_mulmod.md R105): `R <- mulmod(A, D, N)`; `finish`. -/
def tickMmRun (s : State) : Result :=
  orStop (mulmod s.a s.d s.n) .zeroModulusEvaluated fun p => .next { s with r := p }.finish

end Sys2Proof.Machine
end

