-- ==== Sys2Proof/Machine/Rom.lean ====
section
/-! DEFINITION. WROM, the witness-set ROM (44_wrom.md): a constant, not state (10_state.md R42; 44_wrom.md R185). -/

namespace Sys2Proof.Machine

/-- The table (44_wrom.md R180 to R183, R186): "an ordered, immutable list of (bound, witness-set) pairs" (R185),
rows 0 to 11 in order; row 11 has no bound. Row 6 is kept as printed (R186). -/
def romTable : List (Option Word × List Word) := [
  (some 2047, [2]),
  (some 1373653, [2, 3]),
  (some 9080191, [31, 73]),
  (some 25326001, [2, 3, 5]),
  (some 3215031751, [2, 3, 5, 7]),
  (some 4759123141, [2, 7, 61]),
  (some 1122004669633, [2, 13, 23, 16, 62, 80, 3]),
  (some 2152302898747, [2, 3, 5, 7, 11]),
  (some 3474749660383, [2, 3, 5, 7, 11, 13]),
  (some 341550071728321, [2, 3, 5, 7, 11, 13, 17]),
  (some 3825123056546413051, [2, 3, 5, 7, 11, 13, 17, 19, 23]),
  (none, [2, 3, 5, 7, 11, 13, 17, 19, 23, 29, 31, 37])]

/-- `RomBound(r)`: a value for `r` in 0..10 only (44_wrom.md R181; "`RomBound(11)` does not exist"). -/
def romBound (r : Nat) : Option Word := (romTable[r]?).bind Prod.fst

/-- The witness list of row `r`, in MRT's order (44_wrom.md R182); empty where there is no row. -/
def romWitnesses (r : Nat) : List Word := (romTable[r]?).elim [] Prod.snd

/-- `RomCount(r)`: a value for `r` in 0..11 only (44_wrom.md R183). -/
def romCount (r : Nat) : Option Nat := (romTable[r]?).map fun row => row.2.length

/-- `RomWit(r, k)`: a value for `r` in 0..11 and `k < RomCount(r)` only (44_wrom.md R182). -/
def romWit (r k : Nat) : Option Word := (romWitnesses r)[k]?

/-- `n` is below the bound of a row, or the row has none (44_wrom.md R184: strict, unsigned; the last row is selected
"by default, without a comparison"). -/
def rowAdmits (n : Word) (row : Option Word × List Word) : Bool :=
  match row.1 with
  | some b => decide (n.toNat < b.toNat)
  | none => true

/-- `wsel(n)`: the first row whose bound `n` satisfies (44_wrom.md R184; 43_sieve.md R153). -/
def wsel (n : Word) : Nat := romTable.findIdx (rowAdmits n)

end Sys2Proof.Machine
end

