-- ==== Sys2Proof/Machine/Witness.lean ====
section
/-! DEFINITION. WTEST (42_witness.md): the function, the command, and the witness test's four controller states. -/

namespace Sys2Proof.Machine

/-- "`x ≠ 1` and `x ≠ n-1` and `y = 1`" (42_witness.md R130 step 2), for `n ≥ 1`: a nontrivial square root of 1. -/
def nontrivialRoot (n x y : Word) : Bool := decide (x ≠ 1 ∧ x ≠ n - 1 ∧ y = 1)

/-- The squaring loop and the final test (42_witness.md R130 steps 2 to 4), for `n ≥ 1`, from `x`, with `more` squarings
to do after this one: at least one squaring is always done, so `y` has a value (R132). -/
def wtestLoop (n : Word) : Nat → Word → Bool
  | 0, x => !nontrivialRoot n x (mulRem x x n) && mulRem x x n == 1
  | more + 1, x => !nontrivialRoot n x (mulRem x x n) && wtestLoop n more (mulRem x x n)

/-- `wtest`, for `n ≥ 1` and `s ≥ 1` (42_witness.md R130). -/
def wtestRem (n s d a : Word) : Bool := wtestLoop n (s.toNat - 1) (modexpRem a d n)

/-- `wtest(n, s, d, a)` (42_witness.md R130); no value for `n = 0` or `s = 0` (R131, R132). Every other operand is
computed as written (R140). -/
def wtest (n s d a : Word) : Option Bool := if n = 0 ∨ s = 0 then none else some (wtestRem n s d a)

/-- `WTEST` (42_witness.md R133), its acceptance (30_encoding.md R90): `ZERO_MODULUS` when `N = 0`, then `ZERO_S` when
`S = 0`, else accepted into the engine at `ME_INIT` (log 7). -/
def execWtest (s : State) : Result :=
  .next (whenIdle s (if s.n = 0 then s.raiseFault zeroModulus
    else if s.s = 0 then s.raiseFault zeroS else s.accept .wtest))

/-- State `WT_LOAD` (42_witness.md R134): `X <- R`; `CNT <- S`; `ST <- WT_SQR`. -/
def tickWtLoad (s : State) : Result := .next ({ s with x := s.r, cnt := s.s }.goto .wtSqr)

/-- State `WT_SQR` (42_witness.md R135): `Y <- mulmod(X, X, N)`; `ST <- WT_CHK`. -/
def tickWtSqr (s : State) : Result :=
  orStop (mulmod s.x s.x s.n) .zeroModulusEvaluated fun p => .next ({ s with y := p }.goto .wtChk)

/-- State `WT_CHK` (42_witness.md R136): exit with verdict 0 on a nontrivial square root of 1; else `X <- Y`,
`CNT <- CNT − 1`, and `WT_FIN` when the new `CNT` is 0, `WT_SQR` otherwise. -/
def tickWtChk (s : State) : Result :=
  orStop (predecessor s.n) .subtractionBelowZero fun nMinusOne =>
    if s.x ≠ 1 ∧ s.x ≠ nMinusOne ∧ s.y = 1 then .next (s.wtExit false)
    else orStop (predecessor s.cnt) .subtractionBelowZero fun left =>
      .next ({ s with x := s.y, cnt := left }.goto (if left = 0 then .wtFin else .wtSqr))

/-- State `WT_FIN` (42_witness.md R137): the verdict is whether the last square, `Y`, is 1. -/
def tickWtFin (s : State) : Result := .next (s.wtExit (decide (s.y = 1)))

end Sys2Proof.Machine
end

