-- ==== Sys2Proof/Machine/Sieve.lean ====
section
/-! DEFINITION. SIEVE (43_sieve.md): the functions `decomp` and `isprime`, the commands `DECOMP`, `WSEL` and `ISPRIME`,
and the sieve's seven controller states. -/

namespace Sys2Proof.Machine

/-- The halving loop (43_sieve.md R152), on `s` and `d`; `fuel` bounds the halvings, and 64 are always enough for a
`d ≠ 0`. -/
def decompLoop : Nat → Word → Word → Word × Word
  | 0, s, d => (s, d)
  | fuel + 1, s, d => if isOdd d then (s, d) else decompLoop fuel (s + 1) (half d)

/-- `decomp`, for odd `n ≥ 3` (43_sieve.md R152): the pair `(s, d)`. -/
def decompOdd (n : Word) : Word × Word := decompLoop 64 1 (half (n - 1))

/-- `n` is in the domain of `decomp`: odd and at least 3 (43_sieve.md R152). -/
def decompInDomain (n : Word) : Bool := decide (3 ≤ n.toNat) && isOdd n

/-- `decomp(n)` (43_sieve.md R152); no value outside its domain. -/
def decomp (n : Word) : Option (Word × Word) := if decompInDomain n then some (decompOdd n) else none

/-- Step 1, quick elimination (43_sieve.md R151), in its order; `none` when it does not decide. -/
def quickVerdict (n : Word) : Option Bool :=
  if n.toNat < 2 then some false
  else if !isOdd n && n != 2 then some false
  else if n.toNat % 3 = 0 ∧ n ≠ 3 then some false
  else if n.toNat ≤ 3 then some true
  else none

/-- `isprime(n)` (43_sieve.md R150): quick elimination; then the witnesses of the selected row, in ROM order, with one
`(s, d)` for all, stopping at the first that fails (R154). Defined by the algorithm and the table, not as primality
(R168). -/
def isprime (n : Word) : Bool :=
  match quickVerdict n with
  | some verdict => verdict
  | none => (romWitnesses (wsel n)).all fun a => wtestRem n (decompOdd n).1 (decompOdd n).2 a

/-! ## The commands -/

/-- `DECOMP` (43_sieve.md R156), its acceptance (30_encoding.md R90): `DECOMP_DOMAIN` when `N < 3` or `N` is even, else
accepted into `SV_DEC0` (log 7). -/
def execDecomp (s : State) : Result :=
  .next (whenIdle s (if decompInDomain s.n then s.accept .decomp else s.raiseFault decompDomain))

/-- `WSEL` (43_sieve.md R157), its acceptance (30_encoding.md R90): accepted for every `N`, into `SV_SEL0` (log 7). -/
def execWsel (s : State) : Result := .next (whenIdle s (s.accept .wsel))

/-- `ISPRIME` (43_sieve.md R158), its acceptance (30_encoding.md R90): accepted for every `N`, into `SV_QUICK` (log 7). -/
def execIsprime (s : State) : Result := .next (whenIdle s (s.accept .isprime))

/-! ## The controller states -/

/-- State `SV_QUICK` (43_sieve.md R159): the first line of quick elimination that applies writes `V` and finishes; else
`ST <- SV_DEC0`, `V` not written. -/
def tickSvQuick (s : State) : Result :=
  .next (match quickVerdict s.n with
    | some verdict => { s with v := verdict }.finish
    | none => s.goto .svDec0)

/-- State `SV_DEC0` (43_sieve.md R160): `D <- (N − 1) >> 1`; `S <- 1`; `ST <- SV_DEC`. -/
def tickSvDec0 (s : State) : Result :=
  orStop (predecessor s.n) .subtractionBelowZero fun nMinusOne =>
    .next ({ s with d := half nMinusOne, s := 1 }.goto .svDec)

/-- State `SV_DEC` (43_sieve.md R161): halve an even `D` and count it in `S`; when `D` is odd, `finish` if `OP = 4`, else
`ST <- SV_SEL0`. -/
def tickSvDec (s : State) : Result :=
  if isOdd s.d then .next (if s.op = 4 then s.finish else s.goto .svSel0)
  else orStop (successor s.s) .sumTooWide fun more => .next { s with d := half s.d, s := more }

/-- State `SV_SEL0` (43_sieve.md R162): `ROW <- 0`; `WI <- 0`; `ST <- SV_SCAN`. -/
def tickSvSel0 (s : State) : Result := .next ({ s with row := 0, wi := 0 }.goto .svScan)

/-- Row `ROW` is selected (43_sieve.md R163): `finish` if `OP = 5`, else `ST <- SV_WIT`. -/
def State.rowSelected (s : State) : State := if s.op = 5 then s.finish else s.goto .svWit

/-- State `SV_SCAN` (43_sieve.md R163): row 11 is selected without a comparison, a lower row when `N < RomBound(ROW)`;
else `ROW <- ROW + 1`. -/
def tickSvScan (s : State) : Result :=
  if s.row = 11 then .next s.rowSelected
  else orStop (romBound s.row.toNat) .romOutOfRange fun bound =>
    if s.n.toNat < bound.toNat then .next s.rowSelected
    else orStop (successor s.row) .sumTooWide fun row => .next { s with row := row }

/-- State `SV_WIT` (43_sieve.md R164): `A <- RomWit(ROW, WI)`; `ST <- ME_INIT`. -/
def tickSvWit (s : State) : Result :=
  orStop (romWit s.row.toNat s.wi.toNat) .romOutOfRange fun a => .next ({ s with a := a }.goto .meInit)

/-- State `SV_NEXT` (43_sieve.md R165): `finish` when the witness failed or was the last of its row; else `WI <- WI + 1`
and `ST <- SV_WIT`. -/
def tickSvNext (s : State) : Result :=
  if s.v = false then .next s.finish
  else orStop (romCount s.row.toNat) .romOutOfRange fun count =>
    if s.wi.toNat + 1 = count then .next s.finish
    else orStop (successor s.wi) .sumTooWide fun wi => .next ({ s with wi := wi }.goto .svWit)

end Sys2Proof.Machine
end

