-- ==== Sys2Proof/Machine/Dispatch.lean ====
section
/-! DEFINITION. One arm per command: what writing its word to CMD does (30_encoding.md R90 lines 2 to 5). -/

namespace Sys2Proof.Machine

def exec (i : Instr) (s : State) : Host.Outcome State Fault Refusal :=
  match i with
  | .mulmod => Sys2Proof.Machine.execMulmod s
  | .modexp => Sys2Proof.Machine.execModexp s
  | .wtest => Sys2Proof.Machine.execWtest s
  | .decomp => Sys2Proof.Machine.execDecomp s
  | .wsel => Sys2Proof.Machine.execWsel s
  | .isprime => Sys2Proof.Machine.execIsprime s

end Sys2Proof.Machine
end

