-- ==== Sys2Proof/Config.lean ====
section
/-! DEFINITION. What an implementation fixes, and the one free value (00_scope.md R7; 20_memory.md R54 case (e)). -/

namespace Sys2Proof

/-- `W` of 00_scope.md R7: the width of every data value. -/
def Config.dataWidth : Nat := 64

/-- `WW` of 00_scope.md R7: the width of the multiplier's intermediate product. -/
def Config.productWidth : Nat := 128

/-- `NROWS` of 00_scope.md R7: rows of the witness table. -/
def Config.numRows : Nat := 12

/-- `MAXW` of 00_scope.md R7: the largest witness count in a row. -/
def Config.maxWitnesses : Nat := 12

/-- `NWIT` of 00_scope.md R7: the total number of witness entries. -/
def Config.numWitnesses : Nat := 61

/-- The unspecified value that the `k`-th read of a data register made while `BUSY = 1` returns
(20_memory.md R54 case (e): "a draw under no law"; U10). It has no body: nothing constrains it (log 4). -/
opaque Config.busyRead : Nat → Word

end Sys2Proof
end

