-- ==== Sys2Proof/Machine/Flags.lean ====
section
/-! DEFINITION. The `STATUS` word (10_state.md R38) and the controller state codes (30_encoding.md R85). -/

namespace Sys2Proof.Machine

/-- `STATUS` (10_state.md R38), from bit 63 down: 45 reserved bits, `OP` (18:16), 8 reserved bits (15:8), `ERR` (7:4),
`OVR` (3), `V` (2), `DONE` (1), `BUSY` (0). -/
def State.statusWord (s : State) : Word :=
  (0#45 ++ s.op ++ 0#8 ++ s.err ++ BitVec.ofBool s.ovr ++ BitVec.ofBool s.v ++ BitVec.ofBool s.done
    ++ BitVec.ofBool s.busy : BitVec 64)

/-- The 5-bit codes an implementation may give `ST` (30_encoding.md R85). No rule and no other definition reads one. -/
def Ctl.code : Ctl → BitVec 5
  | .idle => 0
  | .mmRun => 1
  | .meInit => 2
  | .meTest => 3
  | .meMul => 4
  | .meSqr => 5
  | .wtLoad => 6
  | .wtSqr => 7
  | .wtChk => 8
  | .wtFin => 9
  | .svQuick => 10
  | .svDec0 => 11
  | .svDec => 12
  | .svSel0 => 13
  | .svScan => 14
  | .svWit => 15
  | .svNext => 16
  | .fault => 31

end Sys2Proof.Machine
end

