-- ==== Sys2Proof/Machine/Operands.lean ====
section
/-! DEFINITION. The host register space (20_memory.md R50 to R53): what each word index reads as, and which registers a
host write stores to. -/

namespace Sys2Proof.Machine

/-- The register words 0x002 to 0x00D, narrow ones zero-extended (20_memory.md R51, R58); `none` for any other index. -/
def State.dataWord (s : State) (addr : WordIndex) : Option Word :=
  match addr.toNat with
  | 0x002 => some s.n
  | 0x003 => some s.a
  | 0x004 => some s.d
  | 0x005 => some s.s
  | 0x006 => some s.r
  | 0x007 => some s.x
  | 0x008 => some s.y
  | 0x009 => some s.base
  | 0x00A => some s.exp
  | 0x00B => some s.cnt
  | 0x00C => some (s.row.setWidth 64)
  | 0x00D => some (s.wi.setWidth 64)
  | _ => none

/-- The ROM windows (20_memory.md R52; 30_encoding.md R87), `none` outside them. `BOUND[r]` at 0x040 + r, r in 0..10;
`WCNT[r]` at 0x050 + r, r in 0..11; `WIT[r][k]` at 0x100 + 16 × r + k, r in 0..11, k in 0..15, 0 in an unused slot. -/
def romWindow (addr : WordIndex) : Option Word :=
  let i := addr.toNat
  if 0x040 ≤ i ∧ i ≤ 0x04A then romBound (i - 0x040)
  else if 0x050 ≤ i ∧ i ≤ 0x05B then (romCount (i - 0x050)).map (BitVec.ofNat 64)
  else if 0x100 ≤ i ∧ i ≤ 0x1BF then some ((romWit ((i - 0x100) / 16) ((i - 0x100) % 16)).getD 0)
  else none

/-- What a host read of `addr` returns where the spec says which value (20_memory.md R54 cases (a) to (d)); `none` is
case (e), a data register while `BUSY = 1`. -/
def State.hostWord (s : State) (addr : WordIndex) : Option Word :=
  if addr = 0x001 then some s.statusWord
  else match romWindow addr with
    | some c => some c
    | none => match s.dataWord addr with
      | some v => if s.busy then none else some v
      | none => some 0

/-- A host write to a register word when idle (20_memory.md R55 cases (d), (e)): `N`, `A`, `D`, `S` take all 64 bits;
every other word is read only or reserved and ignores the write. Word 0x000, `CMD`, is not written here (R39). -/
def State.storeWord (s : State) (addr : WordIndex) (v : Word) : State :=
  match addr.toNat with
  | 0x002 => { s with n := v }
  | 0x003 => { s with a := v }
  | 0x004 => { s with d := v }
  | 0x005 => { s with s := v }
  | _ => s

end Sys2Proof.Machine
end

