-- ==== Sys2Proof/Machine/Tick.lean ====
section
/-! DEFINITION. The controller's `Tick` (00_scope.md R12): one transition, chosen by `ST` (10_state.md R34), and a run
of several. -/

namespace Sys2Proof.Machine

/-- `Tick` (00_scope.md R12): the one transition that the rule for the current `ST` gives; nothing in `IDLE` and in
`FAULT` (60_exceptions.md R210). -/
def tick (s : State) : Result :=
  match s.st with
  | .idle => .next s
  | .mmRun => tickMmRun s
  | .meInit => tickMeInit s
  | .meTest => tickMeTest s
  | .meMul => tickMeMul s
  | .meSqr => tickMeSqr s
  | .wtLoad => tickWtLoad s
  | .wtSqr => tickWtSqr s
  | .wtChk => tickWtChk s
  | .wtFin => tickWtFin s
  | .svQuick => tickSvQuick s
  | .svDec0 => tickSvDec0 s
  | .svDec => tickSvDec s
  | .svSel0 => tickSvSel0 s
  | .svScan => tickSvScan s
  | .svWit => tickSvWit s
  | .svNext => tickSvNext s
  | .fault => .next s

/-- `k` `Tick`s in a row, stopping at the first that does not answer a next state. -/
def ticks : Nat → State → Result
  | 0, s => .next s
  | k + 1, s =>
    match tick s with
    | .next t => ticks k t
    | .fault why => .fault why
    | .refused why => .refused why

/-- The successors of each controller state (43_sieve.md R169), `Tick` only; a `Tick` leaves `IDLE` and `FAULT` as they
are (00_scope.md R12). -/
def tickSuccessors : Ctl → List Ctl
  | .idle => [.idle]
  | .mmRun => [.idle]
  | .meInit => [.meTest]
  | .meTest => [.meMul, .meSqr, .wtLoad, .idle]
  | .meMul => [.meSqr]
  | .meSqr => [.meTest]
  | .wtLoad => [.wtSqr]
  | .wtSqr => [.wtChk]
  | .wtChk => [.wtSqr, .wtFin, .idle, .svNext]
  | .wtFin => [.idle, .svNext]
  | .svQuick => [.idle, .svDec0]
  | .svDec0 => [.svDec]
  | .svDec => [.svDec, .idle, .svSel0]
  | .svSel0 => [.svScan]
  | .svScan => [.svScan, .idle, .svWit]
  | .svWit => [.meInit]
  | .svNext => [.idle, .svWit]
  | .fault => [.fault]

end Sys2Proof.Machine
end

