-- ==== Sys2Proof/Machine/Port.lean ====
section
/-! DEFINITION. The host port (20_memory.md R54, R55; 70_reset_and_hazards.md R230), and one event of an execution. -/

namespace Sys2Proof.Machine

/-- `HostRead(addr)` (20_memory.md R54): the block's state does not change; the host gets the word, or a draw where it
is unspecified (case (e); log 4). -/
def hostRead (addr : WordIndex) (s : State) : State :=
  match s.hostWord addr with
  | some v => { s with reads := v :: s.reads }
  | none => { s with reads := Config.busyRead s.draws :: s.reads, draws := s.draws + 1 }

/-- A write to `CMD` (30_encoding.md R90): an illegal word raises `ILLEGAL_CMD` (line 1); a legal one is issued (lines 2
to 5). -/
def issueWord (w : Word) (s : State) : Result :=
  match decode w with
  | some i => exec i s
  | none => .next (s.raiseFault illegalCmd)

/-- `HostWrite(addr, v)` (20_memory.md R55): dropped in `FAULT` (a); dropped with `OVR <- 1` while `BUSY = 1`, not decoded
(b); a command at word 0x000 (c); a register store or nothing at any other word (d), (e). -/
def hostWrite (addr : WordIndex) (v : Word) (s : State) : Result :=
  match s.st with
  | .idle => if addr = 0x000 then issueWord v s else .next (s.storeWord addr v)
  | _ => .next (whenIdle s s)

/-- One event (00_scope.md R12). `WAIT` polls `STATUS` (30_encoding.md R88): while bit 0 reads 1 it stays pending and a
`Tick` passes before the next poll; when bit 0 reads 0 it is over (log 3). -/
def runEvent (e : Event) (s : State) : Result :=
  match e with
  | .read addr => .next (hostRead addr s)
  | .write addr v => hostWrite addr v s
  | .reset => .next s.resetBlock
  | .tick => tick s
  | .wait => if s.statusWord.getLsbD 0 then tick { s with pending := .wait :: s.pending } else .next s

/-- The next event of the execution (log 1): the first pending one; with none pending, a `Tick` (log 2). -/
def stepEvent (s : State) : Result :=
  match s.pending with
  | [] => tick s
  | e :: rest => runEvent e { s with pending := rest }

/-- A write of `w` to `CMD` becomes the next event (log 8). -/
def State.issueNext (s : State) (w : Word) : State := { s with pending := .write 0x000 w :: s.pending }

end Sys2Proof.Machine
end

