-- ==== Sys2Proof/Machine/Step.lean ====
section
/-! DEFINITION. One step, and where the next command comes from. -/

namespace Sys2Proof.Machine

/-- One step of the machine: one event of the execution, host transaction or controller `Tick` (00_scope.md R12, R13). -/
def step (s : State) : Host.Outcome State Fault Refusal := stepEvent s

/-- `s` with the command word of `nbits` bits `w` as the next event, a host write to `CMD` (log 8): the block fetches
nothing, "a command is consumed at the moment `CMD` is written" (20_memory.md R65). -/
def State.withFetchWord (s : State) (nbits w : Nat) : State := s.issueNext (BitVec.ofNat 64 (w % 2 ^ nbits))

end Sys2Proof.Machine
end

