-- ==== Sys2Proof/Machine/Script.lean ====
section
/-! DEFINITION. The host-script notation (30_encoding.md R88, R89): registers by name, script lines and pseudo-commands,
what makes a line well formed, and the bus transactions a script stands for. -/

namespace Sys2Proof.Machine

/-- The names of the words of the host register space (20_memory.md R51, R52; log 13). -/
inductive RegName where
  | cmd | status | n | a | d | s | r | x | y | base | exp | cnt | row | wi
  /-- `BOUND[r]`. -/
  | bound (r : Nat)
  /-- `WCNT[r]`. -/
  | wcnt (r : Nat)
  /-- `WIT[r][k]`. -/
  | wit (r k : Nat)
  deriving DecidableEq, Repr

/-- A line of a host script (30_encoding.md R88) or a pseudo-command (R89). -/
inductive ScriptLine where
  /-- `WR reg, value`. -/
  | wr (reg : RegName) (value : Nat)
  /-- `RD reg`. -/
  | rd (reg : RegName)
  /-- A command without operands. -/
  | command (i : Instr)
  /-- `CMDW value`, for illegal words. -/
  | cmdw (value : Nat)
  /-- `WAIT`. -/
  | wait
  /-- `RESET`. -/
  | reset
  /-- `MULMOD a, b, m`. -/
  | mulmodOf (a b m : Nat)
  /-- `MODEXP base, exponent, modulus`. -/
  | modexpOf (base exponent modulus : Nat)
  /-- `WTEST n, s, d, a`. -/
  | wtestOf (n s d a : Nat)
  /-- `DECOMP n`. -/
  | decompOf (n : Nat)
  /-- `WSEL n`. -/
  | wselOf (n : Nat)
  /-- `ISPRIME n`. -/
  | isprimeOf (n : Nat)
  deriving DecidableEq, Repr

/-- A number of a script fits the 64-bit host data width (00_scope.md R7). -/
def scriptValueOk (value : Nat) : Bool := decide (value < 2 ^ 64)

/-- A name stands for a word of 20_memory.md R51 or R52. -/
def RegName.wf : RegName → Bool
  | .bound i => decide (i ≤ 10)
  | .wcnt i => decide (i ≤ 11)
  | .wit i k => decide (i ≤ 11) && decide (k ≤ 15)
  | _ => true

/-- A script line is well formed: its names stand for words and its numbers fit (log 13). -/
def ScriptLine.wf : ScriptLine → Bool
  | .wr reg value => reg.wf && scriptValueOk value
  | .rd reg => reg.wf
  | .command i => i.wf
  | .cmdw value => scriptValueOk value
  | .wait | .reset => true
  | .mulmodOf a b m => scriptValueOk a && scriptValueOk b && scriptValueOk m
  | .modexpOf b e m => scriptValueOk b && scriptValueOk e && scriptValueOk m
  | .wtestOf n s d a => scriptValueOk n && scriptValueOk s && scriptValueOk d && scriptValueOk a
  | .decompOf n | .wselOf n | .isprimeOf n => scriptValueOk n

/-- `index(reg)`: the word index of a name (20_memory.md R51, R52). -/
def RegName.index : RegName → WordIndex
  | .cmd => 0x000
  | .status => 0x001
  | .n => 0x002
  | .a => 0x003
  | .d => 0x004
  | .s => 0x005
  | .r => 0x006
  | .x => 0x007
  | .y => 0x008
  | .base => 0x009
  | .exp => 0x00A
  | .cnt => 0x00B
  | .row => 0x00C
  | .wi => 0x00D
  | .bound i => BitVec.ofNat 9 (0x040 + i)
  | .wcnt i => BitVec.ofNat 9 (0x050 + i)
  | .wit i k => BitVec.ofNat 9 (0x100 + 16 * i + k)

/-- `WR reg, value` as a bus transaction. -/
def writeOf (reg : RegName) (value : Nat) : Event := .write reg.index (BitVec.ofNat 64 value)

/-- A command without operands as a bus transaction: `W 0x000 <opcode>` (30_encoding.md R88). -/
def commandOf (i : Instr) : Event := .write 0x000 (encode i)

/-- The bus transactions of a well-formed line (30_encoding.md R88, R89). -/
def ScriptLine.expand : ScriptLine → List Event
  | .wr reg value => [writeOf reg value]
  | .rd reg => [.read reg.index]
  | .command i => [commandOf i]
  | .cmdw value => [.write 0x000 (BitVec.ofNat 64 value)]
  | .wait => [.wait]
  | .reset => [.reset]
  | .mulmodOf a b m => [writeOf .a a, writeOf .d b, writeOf .n m, commandOf .mulmod, .wait]
  | .modexpOf b e m => [writeOf .a b, writeOf .d e, writeOf .n m, commandOf .modexp, .wait]
  | .wtestOf n s d a => [writeOf .n n, writeOf .s s, writeOf .d d, writeOf .a a, commandOf .wtest, .wait]
  | .decompOf n => [writeOf .n n, commandOf .decomp, .wait]
  | .wselOf n => [writeOf .n n, commandOf .wsel, .wait]
  | .isprimeOf n => [writeOf .n n, commandOf .isprime, .wait]

/-- The bus transactions of a script, top to bottom; a script with an ill-formed line stands for none. -/
def scriptEvents (script : List ScriptLine) : Option (List Event) :=
  if script.all ScriptLine.wf then some (script.flatMap ScriptLine.expand) else none

end Sys2Proof.Machine
end

