-- ==== Sys2Proof/Safety.lean ====
section
/-! DEFINITION. What a sound state of the block is: the invariants of 10_state.md R40, with what the rules say of the
registers in each controller state (43_sieve.md R167; 44_wrom.md R184), strong enough for every step to keep them. -/

namespace Sys2Proof.Machine

/-- The states of the exponentiation engine (41_modexp.md R116 to R119). -/
def Ctl.inEngine : Ctl → Bool
  | .meInit | .meTest | .meMul | .meSqr => true
  | _ => false

/-- The states of the witness test after the engine (42_witness.md R134 to R137). -/
def Ctl.inWitness : Ctl → Bool
  | .wtLoad | .wtSqr | .wtChk | .wtFin => true
  | _ => false

/-- The opcodes under which each controller state can be entered (41_modexp.md section 3; 42_witness.md section 3;
43_sieve.md section 3). -/
def Ctl.opcodes : Ctl → List Opcode
  | .idle | .fault => [0, 1, 2, 3, 4, 5, 6]
  | .mmRun => [1]
  | .meInit | .meTest | .meMul | .meSqr => [2, 3, 6]
  | .wtLoad | .wtSqr | .wtChk | .wtFin => [3, 6]
  | .svQuick | .svWit | .svNext => [6]
  | .svDec0 | .svDec => [4, 6]
  | .svSel0 | .svScan => [5, 6]

/-- `ISPRIME` is past quick elimination (43_sieve.md R151). -/
def State.pastQuick (s : State) : Bool := decide (s.op = 6) && s.busy && decide (s.st ≠ .svQuick)

/-- `ISPRIME` is past the decomposition (43_sieve.md R152). -/
def State.pastDecomp (s : State) : Bool := s.pastQuick && decide (s.st ≠ .svDec0) && decide (s.st ≠ .svDec)

/-- `ISPRIME` is past the row selection (43_sieve.md R153). -/
def State.pastSelection (s : State) : Bool := s.pastDecomp && decide (s.st ≠ .svSel0) && decide (s.st ≠ .svScan)

/-- `n − 1 = 2^s × d` with `s` in 1..63 and `d ≠ 0` (43_sieve.md R152). -/
abbrev splits (n s d : Word) : Prop :=
  1 ≤ s.toNat ∧ s.toNat ≤ 63 ∧ d ≠ 0 ∧ n.toNat = 2 ^ s.toNat * d.toNat + 1

/-- R40 (a), with 10_state.md R36: `ERR ≠ 0` exactly in `FAULT`, and `ERR` is one of 0 to 4. -/
abbrev State.errOk (s : State) : Prop := (s.err ≠ 0 ↔ s.st = .fault) ∧ s.err.toNat ≤ 4

/-- R40 (b): `DONE = 1` only in `IDLE`. -/
abbrev State.doneOk (s : State) : Prop := s.done = true → s.st = .idle

/-- R40 (d): `ROW` and `WI` are at most 11. -/
abbrev State.rowOk (s : State) : Prop := s.row.toNat ≤ 11 ∧ s.wi.toNat ≤ 11

/-- R40 (e) as far as one state shows it: `OP` is in 0..6 and belongs to the controller state; with `OP = 0` no command
is running or completed. -/
abbrev State.opOk (s : State) : Prop := s.op ∈ s.st.opcodes ∧ (s.op = 0 → s.done = false)

/-- R40 (f): the modulus is not 0 where it is used. -/
abbrev State.modulusOk (s : State) : Prop :=
  (s.st = .mmRun ∨ s.st.inEngine = true ∨ s.st.inWitness = true) → s.n ≠ 0

/-- R40 (g), and 42_witness.md section 3: squarings are left where `CNT` is used, and `S ≥ 1` until it is loaded. -/
abbrev State.countOk (s : State) : Prop :=
  ((s.st = .wtSqr ∨ s.st = .wtChk) → s.cnt ≠ 0) ∧
  (s.op ≠ 2 → (s.st.inEngine = true ∨ s.st = .wtLoad) → s.s ≠ 0)

/-- What the decomposition works on (43_sieve.md R160, R161). -/
abbrev State.decompOk (s : State) : Prop :=
  ((s.st = .svDec0 ∨ s.st = .svDec) → decompInDomain s.n = true) ∧
  (s.st = .svDec → splits s.n s.s s.d)

/-- What the row scan has passed (43_sieve.md R163; 44_wrom.md R184). -/
abbrev State.scanOk (s : State) : Prop := s.st = .svScan → s.row.toNat ≤ wsel s.n ∧ s.wi = 0

/-- What `ISPRIME` has established (43_sieve.md R167): after quick elimination `N ≥ 5` is odd and no multiple of 3; after
the decomposition `(S, D)` is the decomposition of `N − 1`; after the selection `ROW` is the row of `N` and `WI` a witness
of it; once the witness is loaded, `A` is that witness. -/
abbrev State.sieveOk (s : State) : Prop :=
  (s.pastQuick = true → quickVerdict s.n = none) ∧
  (s.pastDecomp = true → splits s.n s.s s.d ∧ isOdd s.d = true) ∧
  (s.pastSelection = true → s.row.toNat = wsel s.n ∧ (romWit s.row.toNat s.wi.toNat).isSome = true) ∧
  (s.pastSelection = true → s.st ≠ .svWit → romWit s.row.toNat s.wi.toNat = some s.a)

/-- A sound state: every reachable state is one (10_state.md R40). -/
structure State.Inv (s : State) : Prop where
  errOk : s.errOk
  doneOk : s.doneOk
  rowOk : s.rowOk
  opOk : s.opOk
  modulusOk : s.modulusOk
  countOk : s.countOk
  decompOk : s.decompOk
  scanOk : s.scanOk
  sieveOk : s.sieveOk

end Sys2Proof.Machine
end

