-- ==== Sys2Proof/Certificates/Slice0/Obligations.lean ====
section
/-! DEFINITION. The statements about the model. Each docstring names the rule of spec/ it formalises. -/

open Sys2Proof Sys2Proof.Machine

/-! ## Words the statements use -/

/-- `L`, the bit length of a word (41_modexp.md R114, R120): the number of its binary digits. -/
def Sys2Proof.Claims.bitLength (v : Word) : Nat := (Nat.digits 2 v.toNat).length

/-- `P`, the number of set bits of a word (41_modexp.md R120): the sum of its binary digits. -/
def Sys2Proof.Claims.setBits (v : Word) : Nat := (Nat.digits 2 v.toNat).sum

/-- `x_i` of 42_witness.md R141: `x_0` squared `i` times modulo `n`. -/
def Sys2Proof.Claims.squares (n x0 : Word) : Nat → Word
  | 0 => x0
  | i + 1 => BitVec.ofNat 64 ((squares n x0 i).toNat * (squares n x0 i).toNat % n.toNat)

/-- The witness test leaves its loop early at squaring `i + 1` (42_witness.md R141): `x_i` is neither 1 nor `n − 1`, and
`x_(i+1) = 1`. -/
def Sys2Proof.Claims.earlyAt (n x0 : Word) (i : Nat) : Prop :=
  Claims.squares n x0 i ≠ 1 ∧ (Claims.squares n x0 i).toNat ≠ n.toNat - 1 ∧ Claims.squares n x0 (i + 1) = 1

/-- How a witness test that starts at `WT_LOAD` with `x_0` ends, after `steps` `Tick`s (42_witness.md R141, R133): either at
an early exit, with `X`, `Y`, `CNT` and the verdict 0 as there, or with its `s` squarings all done. -/
def Sys2Proof.Claims.witnessEnd (n s x0 : Word) (steps : Nat) (x y cnt : Word) (verdict : Bool) : Prop :=
  (∃ i < s.toNat, Claims.earlyAt n x0 i ∧ steps = 2 * i + 3 ∧ x = Claims.squares n x0 i ∧ y = 1 ∧
    cnt.toNat = s.toNat - i ∧ verdict = false) ∨
  ((∀ i < s.toNat, ¬ Claims.earlyAt n x0 i) ∧ steps = 2 * s.toNat + 2 ∧ x = Claims.squares n x0 s.toNat ∧
    y = Claims.squares n x0 s.toNat ∧ cnt = 0 ∧ (verdict = true ↔ Claims.squares n x0 s.toNat = 1))

/-- The two states agree on the operands of a command (10_state.md R41). -/
def Sys2Proof.Claims.sameOperands : Instr → State → State → Prop
  | .mulmod, s, t => s.n = t.n ∧ s.a = t.a ∧ s.d = t.d
  | .modexp, s, t => s.n = t.n ∧ s.a = t.a ∧ s.d = t.d
  | .wtest, s, t => s.n = t.n ∧ s.s = t.s ∧ s.d = t.d ∧ s.a = t.a
  | .decomp, s, t => s.n = t.n
  | .wsel, s, t => s.n = t.n
  | .isprime, s, t => s.n = t.n

/-- The two states agree on what a command writes (30_encoding.md R82). -/
def Sys2Proof.Claims.sameResults : Instr → State → State → Prop
  | .mulmod, s, t => s.r = t.r
  | .modexp, s, t => s.r = t.r ∧ s.base = t.base ∧ s.exp = t.exp
  | .wtest, s, t => s.v = t.v ∧ s.r = t.r ∧ s.base = t.base ∧ s.exp = t.exp ∧ s.x = t.x ∧ s.y = t.y ∧ s.cnt = t.cnt
  | .decomp, s, t => s.s = t.s ∧ s.d = t.d
  | .wsel, s, t => s.row = t.row ∧ s.wi = t.wi
  | .isprime, s, t => s.v = t.v ∧ (quickVerdict s.n = none →
      s.s = t.s ∧ s.d = t.d ∧ s.row = t.row ∧ s.wi = t.wi ∧ s.a = t.a ∧ s.r = t.r ∧ s.base = t.base ∧
        s.exp = t.exp ∧ s.x = t.x ∧ s.y = t.y ∧ s.cnt = t.cnt)

/-! ## Encoding -/

/-- 30_encoding.md R81: the six command words, and the two illegal opcodes. -/
def Obligations.TableWordsDecodeToTheirCommands : Prop :=
  decode 0x0000000000000001 = some .mulmod ∧ decode 0x0000000000000002 = some .modexp ∧
  decode 0x0000000000000003 = some .wtest ∧ decode 0x0000000000000004 = some .decomp ∧
  decode 0x0000000000000005 = some .wsel ∧ decode 0x0000000000000006 = some .isprime ∧
  decode 0x0000000000000000 = none ∧ decode 0x0000000000000007 = none

/-- 30_encoding.md R80, R81: a command decodes from its own word, and from no other. -/
def Obligations.DecodeInvertsEncodeBothWays : Prop :=
  ∀ i : Instr, i.wf = true →
    decode (encode i) = some i ∧ ∀ w : Word, decode w = some i → w = encode i

/-- 30_encoding.md R83: which words are illegal, what writing one does, and how many are legal. -/
def Obligations.IllegalWordsFaultAndSixAreLegal : Prop :=
  (∀ w : Word, decode w = none ↔ (w.extractLsb 63 3 ≠ 0 ∨ w.extractLsb 2 0 = 0 ∨ w.extractLsb 2 0 = 7)) ∧
  (∀ w : Word, decode w ≠ none ↔ w ∈ [(1 : Word), 2, 3, 4, 5, 6]) ∧
  (∀ (w : Word) (s : State), s.st = .idle → decode w = none →
    hostWrite 0x000 w s = .next { s with err := 1, st := .fault, done := false })

/-- 30_encoding.md R85: the codes of the controller states are distinct. -/
def Obligations.ControllerStateCodesAreDistinct : Prop :=
  ∀ c e : Ctl, c.code = e.code → c = e

/-! ## A step -/

/-- When the next event writes a command's word to `CMD`, the step is `exec` of that command, with the event taken off
the list (log 1); and `withFetchWord` makes it so (log 8). -/
def Obligations.StepRunsTheDecodedCommand : Prop :=
  (∀ (s : State) (w : Word) (rest : List Event) (i : Instr),
    s.pending = .write 0x000 w :: rest → decode w = some i → step s = exec i { s with pending := rest }) ∧
  (∀ (s : State) (i : Instr), step (s.withFetchWord 64 (encode i).toNat) = exec i s)

/-- 30_encoding.md R90: the checks of a command write, in order, read from the bits of the word; when `ST ≠ IDLE` the word is
not decoded. -/
def Obligations.AcceptanceChecksInOrder : Prop :=
  ∀ (s : State) (w : Word),
    (s.st ≠ .idle → hostWrite 0x000 w s = .next (if s.st = .fault then s else { s with ovr := true })) ∧
    (s.st = .idle → hostWrite 0x000 w s = .next (
      if w.extractLsb 63 3 ≠ 0 ∨ w.extractLsb 2 0 = 0 ∨ w.extractLsb 2 0 = 7 then
        { s with err := 1, st := .fault, done := false }
      else if (w.extractLsb 2 0 = 1 ∨ w.extractLsb 2 0 = 2 ∨ w.extractLsb 2 0 = 3) ∧ s.n = 0 then
        { s with err := 2, st := .fault, done := false }
      else if w.extractLsb 2 0 = 3 ∧ s.s = 0 then
        { s with err := 3, st := .fault, done := false }
      else if w.extractLsb 2 0 = 4 ∧ (s.n.toNat < 3 ∨ s.n.toNat % 2 = 0) then
        { s with err := 4, st := .fault, done := false }
      else
        { s with
          op := w.extractLsb 2 0, done := false,
          st := if w.extractLsb 2 0 = 1 then .mmRun
            else if w.extractLsb 2 0 = 2 ∨ w.extractLsb 2 0 = 3 then .meInit
            else if w.extractLsb 2 0 = 4 then .svDec0
            else if w.extractLsb 2 0 = 5 then .svSel0
            else .svQuick }))

/-- 60_exceptions.md R202, R203, R204: where each command raises a fault, with the state it leaves (R208). -/
def Obligations.PreconditionFaultsOfEachCommand : Prop :=
  ∀ s : State, s.st = .idle →
    (s.n = 0 →
      exec .mulmod s = .next { s with err := 2, st := .fault, done := false } ∧
      exec .modexp s = .next { s with err := 2, st := .fault, done := false } ∧
      exec .wtest s = .next { s with err := 2, st := .fault, done := false }) ∧
    (s.n ≠ 0 → s.s = 0 → exec .wtest s = .next { s with err := 3, st := .fault, done := false }) ∧
    ((s.n.toNat < 3 ∨ s.n.toNat % 2 = 0) →
      exec .decomp s = .next { s with err := 4, st := .fault, done := false })

/-- 60_exceptions.md R208: `raise Fault(code)`, whole, and the `STATUS` word it leaves. -/
def Obligations.FaultEntryAndItsStatusWord : Prop :=
  ∀ (s : State) (code : Nibble), 1 ≤ code.toNat → code.toNat ≤ 4 →
    s.raiseFault code = { s with err := code, st := .fault, done := false } ∧
    (s.raiseFault code).statusWord.getLsbD 0 = false ∧
    (s.raiseFault code).statusWord.getLsbD 1 = false ∧
    (s.raiseFault code).statusWord.extractLsb 7 4 = code ∧
    (s.raiseFault code).statusWord.extractLsb 18 16 = s.op ∧
    (s.v = false → s.ovr = false → ((s.raiseFault code).statusWord.extractLsb 7 0).toNat = 16 * code.toNat)

/-- 60_exceptions.md R210: in `FAULT` a `Tick` and every host write change nothing, a read returns the register and changes
nothing, and only `Reset` leaves the state. -/
def Obligations.FaultStateIsTerminal : Prop :=
  ∀ s : State, s.st = .fault →
    tick s = .next s ∧
    (∀ (addr : WordIndex) (v : Word), hostWrite addr v s = .next s) ∧
    (∀ addr : WordIndex, ∃ v, s.hostWord addr = some v ∧ hostRead addr s = { s with reads := v :: s.reads }) ∧
    (∀ t : State, step s = .next t → s.pending.head? ≠ some .reset → t.st = .fault ∧ t.err = s.err)

/-! ## MULMOD -/

/-- 40_mulmod.md R100, R101, R103: the exact product, reduced; as a 128-bit product; and no value at `m = 0`. -/
def Obligations.MulmodIsTheExactWideRemainder : Prop :=
  (∀ a b m : Word, m ≠ 0 → ∃ p, mulmod a b m = some p ∧ p.toNat = a.toNat * b.toNat % m.toNat ∧
    p = ((a.setWidth 128 * b.setWidth 128) % m.setWidth 128).setWidth 64) ∧
  (∀ a b : Word, mulmod a b 0 = none)

/-- 40_mulmod.md R107: the properties of `mulmod`. -/
def Obligations.MulmodLaws : Prop :=
  ∀ a b m : Word, m ≠ 0 →
    (∃ p, mulmod a b m = some p ∧ p.toNat < m.toNat) ∧
    mulmod a b 1 = some 0 ∧
    mulmod a b m = mulmod b a m ∧
    mulmod 0 b m = some 0 ∧
    mulmod 1 b m = some (b % m) ∧
    mulmod a b m = mulmod (a % m) (b % m) m

/-- 40_mulmod.md R104: `MULMOD`: its word, its fault, and from acceptance to completion in one `Tick` (R105), with everything it
leaves unchanged. -/
def Obligations.MulmodCommandCompletes : Prop :=
  decode 0x0000000000000001 = some .mulmod ∧
  ∀ s : State, s.st = .idle →
    (s.n = 0 → exec .mulmod s = .next { s with err := 2, st := .fault, done := false }) ∧
    (s.n ≠ 0 →
      exec .mulmod s = .next { s with op := 1, done := false, st := .mmRun } ∧
      tick { s with op := 1, done := false, st := .mmRun } = .next { s with
        r := BitVec.ofNat 64 (s.a.toNat * s.d.toNat % s.n.toNat), op := 1, done := true, st := .idle })

/-! ## MODEXP -/

/-- 41_modexp.md R110: the loop computes the power, `base^0 = 1` included. -/
def Obligations.ModexpIsThePower : Prop :=
  ∀ b e m : Word, m ≠ 0 → modexp b e m = some (BitVec.ofNat 64 (b.toNat ^ e.toNat % m.toNat))

/-- 41_modexp.md R116 to R119: one `Tick` in each state of the engine. -/
def Obligations.EngineTicks : Prop :=
  ∀ s : State,
    (s.st = .meInit → s.n ≠ 0 →
      tick s = .next { s with r := if s.n = 1 then 0 else 1, base := s.a, exp := s.d, st := .meTest }) ∧
    (s.st = .meTest → tick s = .next (
      if s.exp = 0 then (if s.op = 2 then { s with done := true, st := .idle } else { s with st := .wtLoad })
      else if s.exp.toNat % 2 = 1 then { s with st := .meMul } else { s with st := .meSqr })) ∧
    (s.st = .meMul → s.n ≠ 0 →
      tick s = .next { s with r := BitVec.ofNat 64 (s.r.toNat * s.base.toNat % s.n.toNat), st := .meSqr }) ∧
    (s.st = .meSqr → s.n ≠ 0 →
      tick s = .next { s with
        base := BitVec.ofNat 64 (s.base.toNat * s.base.toNat % s.n.toNat),
        exp := BitVec.ofNat 64 (s.exp.toNat / 2), st := .meTest })

/-- 41_modexp.md R120, R121: one engine run, from `ME_INIT` to leaving `ME_TEST` with `EXP = 0`, and its step count. -/
def Obligations.EngineRunEndState : Prop :=
  ∀ s : State, s.st = .meInit → s.n ≠ 0 →
    ticks (2 * Claims.bitLength s.d + Claims.setBits s.d + 2) s = .next { s with
      r := BitVec.ofNat 64 (s.a.toNat ^ s.d.toNat % s.n.toNat),
      base := if s.d = 0 then s.a else BitVec.ofNat 64 (s.a.toNat ^ 2 ^ Claims.bitLength s.d % s.n.toNat),
      exp := 0,
      st := if s.op = 2 then .idle else .wtLoad,
      done := if s.op = 2 then true else s.done }

/-- 41_modexp.md R115: `MODEXP`: its word, its fault, and from acceptance to completion in `2L + P + 2` steps, 2 to 194, with
everything it leaves unchanged. -/
def Obligations.ModexpCommandCompletes : Prop :=
  decode 0x0000000000000002 = some .modexp ∧
  ∀ s : State, s.st = .idle →
    (s.n = 0 → exec .modexp s = .next { s with err := 2, st := .fault, done := false }) ∧
    (s.n ≠ 0 →
    exec .modexp s = .next { s with op := 2, done := false, st := .meInit } ∧
    ticks (2 * Claims.bitLength s.d + Claims.setBits s.d + 2) { s with op := 2, done := false, st := .meInit } =
      .next { s with
        r := BitVec.ofNat 64 (s.a.toNat ^ s.d.toNat % s.n.toNat),
        base := if s.d = 0 then s.a else BitVec.ofNat 64 (s.a.toNat ^ 2 ^ Claims.bitLength s.d % s.n.toNat),
        exp := 0, op := 2, done := true, st := .idle } ∧
    2 ≤ 2 * Claims.bitLength s.d + Claims.setBits s.d + 2 ∧
    2 * Claims.bitLength s.d + Claims.setBits s.d + 2 ≤ 194)

/-! ## WTEST -/

/-- 42_witness.md R130: the boolean, in words: `true` exactly when no squaring meets a nontrivial square root of 1 and the
last square is 1. -/
def Obligations.WtestMeansNoNontrivialRootAndLastSquareOne : Prop :=
  ∀ n s d a : Word, n ≠ 0 → s ≠ 0 →
    ∃ x0 b, modexp a d n = some x0 ∧ wtest n s d a = some b ∧
      (b = true ↔ (∀ i < s.toNat, ¬ Claims.earlyAt n x0 i) ∧ Claims.squares n x0 s.toNat = 1)

/-- 42_witness.md R134 to R138: one `Tick` in each state of the witness test. -/
def Obligations.WitnessTicks : Prop :=
  ∀ s : State,
    (s.st = .wtLoad → tick s = .next { s with x := s.r, cnt := s.s, st := .wtSqr }) ∧
    (s.st = .wtSqr → s.n ≠ 0 →
      tick s = .next { s with y := BitVec.ofNat 64 (s.x.toNat * s.x.toNat % s.n.toNat), st := .wtChk }) ∧
    (s.st = .wtChk → s.n ≠ 0 → s.cnt ≠ 0 → tick s = .next (
      if s.x ≠ 1 ∧ s.x.toNat ≠ s.n.toNat - 1 ∧ s.y = 1 then
        (if s.op = 3 then { s with v := false, done := true, st := .idle } else { s with v := false, st := .svNext })
      else { s with
        x := s.y, cnt := BitVec.ofNat 64 (s.cnt.toNat - 1),
        st := if s.cnt = 1 then .wtFin else .wtSqr })) ∧
    (s.st = .wtFin → tick s = .next (
      if s.op = 3 then { s with v := decide (s.y = 1), done := true, st := .idle }
      else { s with v := decide (s.y = 1), st := .svNext }))

/-- 42_witness.md R141: the end state of a witness test from `WT_LOAD`, early exit or loop run to its end. -/
def Obligations.WitnessTestEndState : Prop :=
  ∀ s : State, s.st = .wtLoad → s.n ≠ 0 → s.s ≠ 0 →
    (∀ i, i < s.s.toNat → Claims.earlyAt s.n s.r i →
      ticks (2 * i + 3) s = .next { s with
        x := Claims.squares s.n s.r i, y := 1, cnt := BitVec.ofNat 64 (s.s.toNat - i), v := false,
        done := if s.op = 3 then true else s.done, st := if s.op = 3 then .idle else .svNext }) ∧
    ((∀ i, i < s.s.toNat → ¬ Claims.earlyAt s.n s.r i) →
      ticks (2 * s.s.toNat + 2) s = .next { s with
        x := Claims.squares s.n s.r s.s.toNat, y := Claims.squares s.n s.r s.s.toNat, cnt := 0,
        v := decide (Claims.squares s.n s.r s.s.toNat = 1),
        done := if s.op = 3 then true else s.done, st := if s.op = 3 then .idle else .svNext })

/-- 42_witness.md R133: `WTEST`: its word, its faults in order, and from acceptance to completion: the verdict, the engine's and
the witness test's registers, the number of steps, and everything it leaves unchanged. -/
def Obligations.WtestCommandCompletes : Prop :=
  decode 0x0000000000000003 = some .wtest ∧
  ∀ s : State, s.st = .idle →
    (s.n = 0 → exec .wtest s = .next { s with err := 2, st := .fault, done := false }) ∧
    (s.n ≠ 0 → s.s = 0 → exec .wtest s = .next { s with err := 3, st := .fault, done := false }) ∧
    (s.n ≠ 0 → s.s ≠ 0 →
      exec .wtest s = .next { s with op := 3, done := false, st := .meInit } ∧
      ∃ (x0 : Word) (steps : Nat) (x y cnt : Word) (verdict : Bool),
        x0.toNat = s.a.toNat ^ s.d.toNat % s.n.toNat ∧
        Claims.witnessEnd s.n s.s x0 steps x y cnt verdict ∧
        wtest s.n s.s s.d s.a = some verdict ∧
        ticks (2 * Claims.bitLength s.d + Claims.setBits s.d + 2 + steps)
            { s with op := 3, done := false, st := .meInit } = .next { s with
          r := x0,
          base := if s.d = 0 then s.a else BitVec.ofNat 64 (s.a.toNat ^ 2 ^ Claims.bitLength s.d % s.n.toNat),
          exp := 0, x := x, y := y, cnt := cnt, v := verdict, op := 3, done := true, st := .idle })

/-! ## DECOMP -/

/-- 43_sieve.md R152: `decomp` splits `n − 1` for odd `n ≥ 3`, and has no value elsewhere. -/
def Obligations.DecompSplitsNMinusOne : Prop :=
  ∀ n : Word,
    ((3 ≤ n.toNat ∧ n.toNat % 2 = 1) → ∃ s d, decomp n = some (s, d) ∧
      n.toNat - 1 = 2 ^ s.toNat * d.toNat ∧ d.toNat % 2 = 1 ∧ 1 ≤ s.toNat ∧ s.toNat ≤ 63) ∧
    ((n.toNat < 3 ∨ n.toNat % 2 = 0) → decomp n = none)

/-- 43_sieve.md R156: `DECOMP`: its word, its fault, and from acceptance to completion in `S + 1` steps, with everything it
leaves unchanged. -/
def Obligations.DecompCommandCompletes : Prop :=
  decode 0x0000000000000004 = some .decomp ∧
  ∀ s : State, s.st = .idle →
    ((s.n.toNat < 3 ∨ s.n.toNat % 2 = 0) →
      exec .decomp s = .next { s with err := 4, st := .fault, done := false }) ∧
    (3 ≤ s.n.toNat → s.n.toNat % 2 = 1 →
      exec .decomp s = .next { s with op := 4, done := false, st := .svDec0 } ∧
      ∃ valuation oddPart, decomp s.n = some (valuation, oddPart) ∧
        s.n.toNat - 1 = 2 ^ valuation.toNat * oddPart.toNat ∧ oddPart.toNat % 2 = 1 ∧
        ticks (valuation.toNat + 1) { s with op := 4, done := false, st := .svDec0 } = .next { s with
          s := valuation, d := oddPart, op := 4, done := true, st := .idle })

/-! ## WSEL and the ROM -/

/-- 44_wrom.md R181, R182, R183: the content of the ROM, that the bounds are strictly increasing and every witness is in 2..80,
and the word indices at which the host reads each part, in every state (20_memory.md R52). -/
def Obligations.RomContent : Prop :=
  (List.range 11).map romBound = [some 2047, some 1373653, some 9080191, some 25326001, some 3215031751,
    some 4759123141, some 1122004669633, some 2152302898747, some 3474749660383, some 341550071728321,
    some 3825123056546413051] ∧
  romBound 11 = none ∧
  (List.range 12).map romCount = [some 1, some 2, some 2, some 3, some 4, some 3, some 7, some 5, some 6, some 7,
    some 9, some 12] ∧
  (List.range 12).map romWitnesses = [[2], [2, 3], [31, 73], [2, 3, 5], [2, 3, 5, 7], [2, 7, 61],
    [2, 13, 23, 16, 62, 80, 3], [2, 3, 5, 7, 11], [2, 3, 5, 7, 11, 13], [2, 3, 5, 7, 11, 13, 17],
    [2, 3, 5, 7, 11, 13, 17, 19, 23], [2, 3, 5, 7, 11, 13, 17, 19, 23, 29, 31, 37]] ∧
  ((List.range 12).map fun r => (romWitnesses r).length).sum = 61 ∧
  (∀ r < 10, ∃ b c, romBound r = some b ∧ romBound (r + 1) = some c ∧ b.toNat < c.toNat) ∧
  (∀ r k w, romWit r k = some w → 2 ≤ w.toNat ∧ w.toNat ≤ 80) ∧
  ∀ s : State,
    (∀ r ≤ 10, s.hostWord (BitVec.ofNat 9 (0x040 + r)) = romBound r) ∧
    (∀ r ≤ 11, s.hostWord (BitVec.ofNat 9 (0x050 + r)) = some (BitVec.ofNat 64 (romWitnesses r).length)) ∧
    (∀ r ≤ 11, ∀ k ≤ 15, s.hostWord (BitVec.ofNat 9 (0x100 + 16 * r + k)) = some ((romWitnesses r)[k]?.getD 0))

/-- 44_wrom.md R184: `wsel(n)` is the least row whose bound `n` is below, 11 when there is none; and the twelve ranges. -/
def Obligations.WselIsTheFirstSatisfiedBound : Prop :=
  ∀ n : Word,
    (∀ r < wsel n, ∃ b, romBound r = some b ∧ b.toNat ≤ n.toNat) ∧
    ((wsel n = 11 ∧ romBound 11 = none) ∨
      (wsel n ≤ 10 ∧ ∃ b, romBound (wsel n) = some b ∧ n.toNat < b.toNat)) ∧
    wsel n = (if n.toNat < 2047 then 0 else if n.toNat < 1373653 then 1 else if n.toNat < 9080191 then 2
      else if n.toNat < 25326001 then 3 else if n.toNat < 3215031751 then 4 else if n.toNat < 4759123141 then 5
      else if n.toNat < 1122004669633 then 6 else if n.toNat < 2152302898747 then 7
      else if n.toNat < 3474749660383 then 8 else if n.toNat < 341550071728321 then 9
      else if n.toNat < 3825123056546413051 then 10 else 11)

/-- 43_sieve.md R157: `WSEL`: its word, and from acceptance to completion in `ROW + 2` steps, for every `N`, with everything it
leaves unchanged. -/
def Obligations.WselCommandCompletes : Prop :=
  decode 0x0000000000000005 = some .wsel ∧
  ∀ s : State, s.st = .idle →
    exec .wsel s = .next { s with op := 5, done := false, st := .svSel0 } ∧
    ticks (wsel s.n + 2) { s with op := 5, done := false, st := .svSel0 } = .next { s with
      row := BitVec.ofNat 4 (wsel s.n), wi := 0, op := 5, done := true, st := .idle }

/-! ## ISPRIME and the sieve -/

/-- 43_sieve.md R151: what quick elimination decides, and what survives it. -/
def Obligations.QuickEliminationAndItsSurvivors : Prop :=
  ∀ n : Word,
    (n.toNat < 2 → quickVerdict n = some false) ∧
    (n.toNat % 2 = 0 → n.toNat ≠ 2 → quickVerdict n = some false) ∧
    (n.toNat % 3 = 0 → n.toNat ≠ 3 → quickVerdict n = some false) ∧
    ((n.toNat = 2 ∨ n.toNat = 3) → quickVerdict n = some true) ∧
    (quickVerdict n = none ↔ n.toNat % 2 = 1 ∧ n.toNat % 3 ≠ 0 ∧ 5 ≤ n.toNat)

/-- 43_sieve.md R159 to R165: one `Tick` in each state of the sieve. -/
def Obligations.SieveTicks : Prop :=
  ∀ s : State,
    (s.st = .svQuick → tick s = .next (
      if s.n.toNat < 2 then { s with v := false, done := true, st := .idle }
      else if s.n.toNat % 2 = 0 ∧ s.n ≠ 2 then { s with v := false, done := true, st := .idle }
      else if s.n.toNat % 3 = 0 ∧ s.n ≠ 3 then { s with v := false, done := true, st := .idle }
      else if s.n.toNat ≤ 3 then { s with v := true, done := true, st := .idle }
      else { s with st := .svDec0 })) ∧
    (s.st = .svDec0 → s.n ≠ 0 →
      tick s = .next { s with d := BitVec.ofNat 64 ((s.n.toNat - 1) / 2), s := 1, st := .svDec }) ∧
    (s.st = .svDec → s.s.toNat < 2 ^ 64 - 1 → tick s = .next (
      if s.d.toNat % 2 = 0 then { s with d := BitVec.ofNat 64 (s.d.toNat / 2), s := BitVec.ofNat 64 (s.s.toNat + 1) }
      else if s.op = 4 then { s with done := true, st := .idle } else { s with st := .svSel0 })) ∧
    (s.st = .svSel0 → tick s = .next { s with row := 0, wi := 0, st := .svScan }) ∧
    (s.st = .svScan → s.row.toNat ≤ 11 → tick s = .next (
      if s.row = 11 ∨ (romBound s.row.toNat).any (fun b => decide (s.n.toNat < b.toNat)) = true then
        (if s.op = 5 then { s with done := true, st := .idle } else { s with st := .svWit })
      else { s with row := BitVec.ofNat 4 (s.row.toNat + 1) })) ∧
    (s.st = .svWit → ∀ w, romWit s.row.toNat s.wi.toNat = some w →
      tick s = .next { s with a := w, st := .meInit }) ∧
    (s.st = .svNext → ∀ c, romCount s.row.toNat = some c → s.wi.toNat < c → tick s = .next (
      if s.v = false then { s with done := true, st := .idle }
      else if s.wi.toNat + 1 = c then { s with done := true, st := .idle }
      else { s with wi := BitVec.ofNat 4 (s.wi.toNat + 1), st := .svWit }))

/-- 43_sieve.md R158, R159: `ISPRIME` decided by quick elimination: one step, and nothing but the flags is written. -/
def Obligations.IsprimeQuickCompletes : Prop :=
  ∀ (s : State) (verdict : Bool), s.st = .idle → quickVerdict s.n = some verdict →
    exec .isprime s = .next { s with op := 6, done := false, st := .svQuick } ∧
    tick { s with op := 6, done := false, st := .svQuick } = .next { s with
      v := verdict, op := 6, done := true, st := .idle } ∧
    isprime s.n = verdict

/-- 43_sieve.md R150, R158, R170: `ISPRIME` is accepted for every `N`, completes within 4,000 steps, and its verdict is the
function's; `N`, `OVR`, `ERR` and the events still to come are unchanged. -/
def Obligations.IsprimeCommandCompletes : Prop :=
  decode 0x0000000000000006 = some .isprime ∧
  ∀ s : State, s.st = .idle →
    exec .isprime s = .next { s with op := 6, done := false, st := .svQuick } ∧
    ∃ k t, k < 4000 ∧ ticks k { s with op := 6, done := false, st := .svQuick } = .next t ∧
      t.v = isprime s.n ∧ t.done = true ∧ t.st = .idle ∧ t.op = 6 ∧
      t.n = s.n ∧ t.ovr = s.ovr ∧ t.err = s.err ∧ t.pending = s.pending ∧ t.reads = s.reads ∧ t.draws = s.draws

/-- 43_sieve.md R158: what `ISPRIME` leaves in the registers when quick elimination does not decide: the decomposition, the
selected row, the last witness tried (every earlier one passed; after a verdict 1 it is the last of its row), and the
registers as that witness test left them. -/
def Obligations.IsprimeLeavesItsLastWitness : Prop :=
  ∀ s : State, s.st = .idle → quickVerdict s.n = none →
    ∃ k t steps, ticks k { s with op := 6, done := false, st := .svQuick } = .next t ∧ t.done = true ∧ t.st = .idle ∧
      decomp s.n = some (t.s, t.d) ∧ t.row.toNat = wsel s.n ∧
      romWit t.row.toNat t.wi.toNat = some t.a ∧
      t.r.toNat = t.a.toNat ^ t.d.toNat % s.n.toNat ∧ t.exp = 0 ∧
      t.base.toNat = t.a.toNat ^ 2 ^ Claims.bitLength t.d % s.n.toNat ∧
      Claims.witnessEnd s.n t.s t.r steps t.x t.y t.cnt t.v ∧
      wtest s.n t.s t.d t.a = some t.v ∧
      (∀ j < t.wi.toNat, ∃ w, romWit t.row.toNat j = some w ∧ wtest s.n t.s t.d w = some true) ∧
      (t.v = true → romCount t.row.toNat = some (t.wi.toNat + 1)) ∧
      t.n = s.n ∧ t.ovr = s.ovr

/-- 43_sieve.md R168 (a theorem the spec takes from general knowledge, K1): a prime passes, whatever row its witnesses come
from. Nothing is stated of composites. -/
def Obligations.EveryPrimeIsAccepted : Prop :=
  ∀ n : Word, n.toNat.Prime → isprime n = true

/-- 43_sieve.md R167; 44_wrom.md R188: when `SV_WIT` starts a witness test in a sound state, every precondition of the
witness test holds. -/
def Obligations.SieveStartsWitnessTestsInContract : Prop :=
  ∀ s : State, s.Inv → s.st = .svWit →
    5 ≤ s.n.toNat ∧ s.n.toNat % 2 = 1 ∧ 1 ≤ s.s.toNat ∧ s.d.toNat % 2 = 1 ∧
    s.n.toNat - 1 = 2 ^ s.s.toNat * s.d.toNat ∧
    ∃ t, tick s = .next t ∧ 1 < t.a.toNat ∧ t.a.toNat < t.n.toNat ∧ t.n = s.n

/-! ## The whole controller -/

/-- 43_sieve.md R169: the successor relation of the controller states. -/
def Obligations.TickFollowsTheSuccessorRelation : Prop :=
  ∀ s t : State, tick s = .next t → t.st ∈ tickSuccessors s.st

/-- 10_state.md R21 to R36: which register a `Tick` may write in which controller state; every other register keeps its
value, and no `Tick` writes `N`, `OP`, `OVR` or `ERR`. -/
def Obligations.TickWritesOnlyTheNamedRegisters : Prop :=
  ∀ s t : State, tick s = .next t →
    t.n = s.n ∧ t.op = s.op ∧ t.ovr = s.ovr ∧ t.err = s.err ∧
    t.pending = s.pending ∧ t.reads = s.reads ∧ t.draws = s.draws ∧
    (s.st ≠ .svWit → t.a = s.a) ∧
    (s.st ≠ .svDec0 → s.st ≠ .svDec → t.d = s.d ∧ t.s = s.s) ∧
    (s.st ≠ .mmRun → s.st ≠ .meInit → s.st ≠ .meMul → t.r = s.r) ∧
    (s.st ≠ .wtLoad → s.st ≠ .wtChk → t.x = s.x ∧ t.cnt = s.cnt) ∧
    (s.st ≠ .wtSqr → t.y = s.y) ∧
    (s.st ≠ .meInit → s.st ≠ .meSqr → t.base = s.base ∧ t.exp = s.exp) ∧
    (s.st ≠ .svSel0 → s.st ≠ .svScan → t.row = s.row) ∧
    (s.st ≠ .svSel0 → s.st ≠ .svNext → t.wi = s.wi) ∧
    (s.st ≠ .wtChk → s.st ≠ .wtFin → s.st ≠ .svQuick → t.v = s.v) ∧
    (s.busy = true → (t.done = true ↔ t.st = .idle ∨ s.done = true)) ∧
    (s.busy = false → t = s)

/-- 20_memory.md R63: once a command has completed, no `Tick` changes anything, and each data register reads as it is. -/
def Obligations.CompletedResultsAreStable : Prop :=
  ∀ s : State, s.st = .idle →
    (∀ k, ticks k s = .next s) ∧
    (∀ (addr : WordIndex) (v : Word), s.dataWord addr = some v →
      hostRead addr s = { s with reads := v :: s.reads })

/-- 43_sieve.md R170: a running command always ends. -/
def Obligations.RunningCommandsEnd : Prop :=
  ∀ s : State, s.Inv → ∃ k t, ticks k s = .next t ∧ t.busy = false

/-- 10_state.md R43: a command's results depend on its operands alone, never on what else the registers hold. -/
def Obligations.ResultsDependOnOperandsAlone : Prop :=
  ∀ (i : Instr) (s1 s2 u1 : State), s1.st = .idle → s2.st = .idle → Claims.sameOperands i s1 s2 →
    exec i s1 = .next u1 → u1.st ≠ .fault →
    ∃ u2 k t1 t2, exec i s2 = .next u2 ∧ ticks k u1 = .next t1 ∧ ticks k u2 = .next t2 ∧
      t1.done = true ∧ t2.done = true ∧ Claims.sameResults i t1 t2

/-! ## The host port -/

/-- 10_state.md R38: the fields of `STATUS`. -/
def Obligations.StatusWordFields : Prop :=
  ∀ s : State,
    (s.statusWord.getLsbD 0 = true ↔ s.st ≠ .idle ∧ s.st ≠ .fault) ∧
    s.statusWord.getLsbD 1 = s.done ∧ s.statusWord.getLsbD 2 = s.v ∧ s.statusWord.getLsbD 3 = s.ovr ∧
    s.statusWord.extractLsb 7 4 = s.err ∧ s.statusWord.extractLsb 15 8 = 0 ∧
    s.statusWord.extractLsb 18 16 = s.op ∧ s.statusWord.extractLsb 63 19 = 0

/-- 20_memory.md R52, R53, R54 cases (a) to (c): what is readable at any time, and that reading it changes nothing but the
host's own list of values read. -/
def Obligations.ReadsValidAtAnyTime : Prop :=
  ∀ s : State,
    hostRead 0x000 s = { s with reads := 0 :: s.reads } ∧
    hostRead 0x001 s = { s with reads := s.statusWord :: s.reads } ∧
    (∀ r b, r ≤ 10 → romBound r = some b →
      hostRead (BitVec.ofNat 9 (0x040 + r)) s = { s with reads := b :: s.reads }) ∧
    (∀ r c, r ≤ 11 → romCount r = some c →
      hostRead (BitVec.ofNat 9 (0x050 + r)) s = { s with reads := BitVec.ofNat 64 c :: s.reads }) ∧
    (∀ r k, r ≤ 11 → k ≤ 15 →
      hostRead (BitVec.ofNat 9 (0x100 + 16 * r + k)) s =
        { s with reads := (match romWit r k with | some w => w | none => 0) :: s.reads }) ∧
    (∀ addr : WordIndex,
      ((0x00E ≤ addr.toNat ∧ addr.toNat ≤ 0x03F) ∨ (0x04B ≤ addr.toNat ∧ addr.toNat ≤ 0x04F) ∨
        (0x05C ≤ addr.toNat ∧ addr.toNat ≤ 0x0FF) ∨ 0x1C0 ≤ addr.toNat) →
      hostRead addr s = { s with reads := 0 :: s.reads } ∧
        ∀ v : Word, s.st = .idle → hostWrite addr v s = .next s)

/-- 20_memory.md R51, R54 cases (d), (e): a data register reads as its value, zero-extended, when the block is not busy, and
as some unspecified value when it is (for every value of the draw, log 4); the block does not change. -/
def Obligations.DataRegisterReads : Prop :=
  ∀ s : State,
    (s.busy = false →
      ∀ (k : Nat) (v : Word), [s.n, s.a, s.d, s.s, s.r, s.x, s.y, s.base, s.exp, s.cnt,
          BitVec.ofNat 64 s.row.toNat, BitVec.ofNat 64 s.wi.toNat][k]? = some v →
        hostRead (BitVec.ofNat 9 (0x002 + k)) s = { s with reads := v :: s.reads }) ∧
    (s.busy = true → ∀ addr : WordIndex, 0x002 ≤ addr.toNat → addr.toNat ≤ 0x00D →
      ∃ draw, hostRead addr s = { s with reads := draw :: s.reads, draws := s.draws + 1 })

/-- 20_memory.md R55: a host write in each case (the command case (c) is `AcceptanceChecksInOrder`). -/
def Obligations.HostWriteCases : Prop :=
  ∀ (s : State) (addr : WordIndex) (v : Word),
    (s.st = .fault → hostWrite addr v s = .next s) ∧
    (s.busy = true → hostWrite addr v s = .next { s with ovr := true }) ∧
    (s.st = .idle →
      (addr = 0x002 → hostWrite addr v s = .next { s with n := v }) ∧
      (addr = 0x003 → hostWrite addr v s = .next { s with a := v }) ∧
      (addr = 0x004 → hostWrite addr v s = .next { s with d := v }) ∧
      (addr = 0x005 → hostWrite addr v s = .next { s with s := v }) ∧
      ((addr = 0x001 ∨ 0x006 ≤ addr.toNat) → hostWrite addr v s = .next s))

/-- 20_memory.md R62: an operand written while idle is the operand the host reads back and the next command reads: all 64
bits. -/
def Obligations.OperandWritesReadBack : Prop :=
  ∀ (s : State) (addr : WordIndex) (v : Word), s.st = .idle → 0x002 ≤ addr.toNat → addr.toNat ≤ 0x005 →
    ∃ t, hostWrite addr v s = .next t ∧ hostRead addr t = { t with reads := v :: t.reads } ∧
      ∀ other : WordIndex, other ≠ addr → t.hostWord other = s.hostWord other

/-- 10_state.md R45; 70_reset_and_hazards.md R231: `Reset`, from any state. The events still to come and the host's own
record stay (log 9). -/
def Obligations.ResetClearsTheBlock : Prop :=
  (∀ (s : State) (rest : List Event), s.pending = .reset :: rest →
    step s = .next {
      n := 0, a := 0, d := 0, s := 0, r := 0, x := 0, y := 0, base := 0, exp := 0, cnt := 0, row := 0,
      wi := 0, op := 0, st := .idle, done := false, v := false, ovr := false, err := 0,
      pending := rest, reads := s.reads, draws := s.draws }) ∧
  State.reset.statusWord = 0

/-- 30_encoding.md R88: `WAIT` is over when bit 0 of `STATUS` reads 0, and lets a `Tick` pass while it reads 1 (log 3). -/
def Obligations.WaitPollsStatus : Prop :=
  ∀ (s : State) (rest : List Event), s.pending = .wait :: rest →
    (s.busy = false → step s = .next { s with pending := rest }) ∧
    (s.busy = true → step s = tick s)

/-! ## Invariants -/

/-- The state after reset is sound, whatever events are to come (10_state.md R40, R45). -/
def Obligations.ResetStateIsSound : Prop :=
  ∀ events : List Event, State.Inv { State.reset with pending := events }

/-- 10_state.md R40: every step keeps a sound state sound. -/
def Obligations.StepKeepsStatesSound : Prop :=
  ∀ s t : State, s.Inv → step s = .next t → t.Inv

/-- 00_scope.md R13: "there is no fourth outcome": from a sound state every step answers a next state; in particular no value
that the rules leave without a meaning is ever evaluated (40_mulmod.md R103, R106; 20_memory.md R60). -/
def Obligations.SoundStatesNeverStop : Prop :=
  ∀ s : State, s.Inv → ∃ t, step s = .next t

/-- 10_state.md R40 clauses (a) to (d), (f), (g), in every state a run reaches from reset under any sequence of events; clause
(e) as far as one state shows it. -/
def Obligations.ReachableStatesKeepTheInvariants : Prop :=
  ∀ (events : List Event) (k : Nat) (t : State),
    Sys2Proof.core.run k { State.reset with pending := events } = .next t →
    (t.err ≠ 0 ↔ t.st = .fault) ∧
    (t.done = true → t.st = .idle) ∧
    ¬ (t.busy = true ∧ t.done = true) ∧ ¬ (t.busy = true ∧ t.err ≠ 0) ∧ ¬ (t.done = true ∧ t.err ≠ 0) ∧
    t.row.toNat ≤ 11 ∧ t.wi.toNat ≤ 11 ∧
    t.op.toNat ≤ 6 ∧ (t.op = 0 → t.busy = false ∧ t.done = false) ∧
    (t.st ∈ [Ctl.meInit, .meTest, .meMul, .meSqr, .wtLoad, .wtSqr, .wtChk, .wtFin, .mmRun] → 1 ≤ t.n.toNat) ∧
    (t.st ∈ [Ctl.wtSqr, .wtChk] → 1 ≤ t.cnt.toNat)

/-! ## Scripts, end to end -/

/-- 30_encoding.md R89: the pseudo-command `MODEXP base, exponent, modulus`, run as its bus transactions from an idle block,
leaves the power in `R` (41_modexp.md R115; operands as written, 20_memory.md R62). That `WAIT` lets one `Tick` pass per poll is the
model's choice (log 3); that it ends rests on 70_reset_and_hazards.md R243. -/
def Obligations.ModexpScriptComputesThePower : Prop :=
  ∀ (s : State) (b e m : Nat) (events : List Event), s.st = .idle → b < 2 ^ 64 → e < 2 ^ 64 → 1 ≤ m → m < 2 ^ 64 →
    scriptEvents [.modexpOf b e m] = some events →
    ∃ k t, Sys2Proof.core.run k { s with pending := events } = .next t ∧
      t.pending = [] ∧ t.st = .idle ∧ t.done = true ∧ t.r.toNat = b ^ e % m ∧
      t.a.toNat = b ∧ t.d.toNat = e ∧ t.n.toNat = m ∧ t.v = s.v

/-- 30_encoding.md R89: "`ISPRIME n` followed by reading `V` from `STATUS` is MRT's `is_prime(n)`". How `WAIT` polls
(log 3) and that the value read stands in `reads` (log 5) are the model's choice. -/
def Obligations.IsprimeScriptReadsTheVerdict : Prop :=
  ∀ (s : State) (n : Nat) (events : List Event), s.st = .idle → n < 2 ^ 64 →
    scriptEvents [.isprimeOf n, .rd .status] = some events →
    ∃ k t status, Sys2Proof.core.run k { s with pending := events } = .next t ∧
      t.pending = [] ∧ t.reads = status :: s.reads ∧
      status.getLsbD 0 = false ∧ status.getLsbD 1 = true ∧
      status.getLsbD 2 = isprime (BitVec.ofNat 64 n)
end

