-- ==== Sys2Proof/Laws/State.lean ====
section
/-! SUPPORT. One lemma per field per update of the state: what each shared update leaves in each field. -/

namespace Sys2Proof.Machine

section
variable (s : State)

/-! `finish` (43_sieve.md R166) writes `DONE` and `ST`. -/

@[simp] theorem finish_n : (s.finish).n = s.n := rfl
@[simp] theorem finish_a : (s.finish).a = s.a := rfl
@[simp] theorem finish_d : (s.finish).d = s.d := rfl
@[simp] theorem finish_s : (s.finish).s = s.s := rfl
@[simp] theorem finish_r : (s.finish).r = s.r := rfl
@[simp] theorem finish_x : (s.finish).x = s.x := rfl
@[simp] theorem finish_y : (s.finish).y = s.y := rfl
@[simp] theorem finish_base : (s.finish).base = s.base := rfl
@[simp] theorem finish_exp : (s.finish).exp = s.exp := rfl
@[simp] theorem finish_cnt : (s.finish).cnt = s.cnt := rfl
@[simp] theorem finish_row : (s.finish).row = s.row := rfl
@[simp] theorem finish_wi : (s.finish).wi = s.wi := rfl
@[simp] theorem finish_op : (s.finish).op = s.op := rfl
@[simp] theorem finish_st : (s.finish).st = .idle := rfl
@[simp] theorem finish_done : (s.finish).done = true := rfl
@[simp] theorem finish_v : (s.finish).v = s.v := rfl
@[simp] theorem finish_ovr : (s.finish).ovr = s.ovr := rfl
@[simp] theorem finish_err : (s.finish).err = s.err := rfl
@[simp] theorem finish_pending : (s.finish).pending = s.pending := rfl
@[simp] theorem finish_reads : (s.finish).reads = s.reads := rfl
@[simp] theorem finish_draws : (s.finish).draws = s.draws := rfl

/-! `ST <- target` writes `ST`. -/

@[simp] theorem goto_n (c : Ctl) : (s.goto c).n = s.n := rfl
@[simp] theorem goto_a (c : Ctl) : (s.goto c).a = s.a := rfl
@[simp] theorem goto_d (c : Ctl) : (s.goto c).d = s.d := rfl
@[simp] theorem goto_s (c : Ctl) : (s.goto c).s = s.s := rfl
@[simp] theorem goto_r (c : Ctl) : (s.goto c).r = s.r := rfl
@[simp] theorem goto_x (c : Ctl) : (s.goto c).x = s.x := rfl
@[simp] theorem goto_y (c : Ctl) : (s.goto c).y = s.y := rfl
@[simp] theorem goto_base (c : Ctl) : (s.goto c).base = s.base := rfl
@[simp] theorem goto_exp (c : Ctl) : (s.goto c).exp = s.exp := rfl
@[simp] theorem goto_cnt (c : Ctl) : (s.goto c).cnt = s.cnt := rfl
@[simp] theorem goto_row (c : Ctl) : (s.goto c).row = s.row := rfl
@[simp] theorem goto_wi (c : Ctl) : (s.goto c).wi = s.wi := rfl
@[simp] theorem goto_op (c : Ctl) : (s.goto c).op = s.op := rfl
@[simp] theorem goto_st (c : Ctl) : (s.goto c).st = c := rfl
@[simp] theorem goto_done (c : Ctl) : (s.goto c).done = s.done := rfl
@[simp] theorem goto_v (c : Ctl) : (s.goto c).v = s.v := rfl
@[simp] theorem goto_ovr (c : Ctl) : (s.goto c).ovr = s.ovr := rfl
@[simp] theorem goto_err (c : Ctl) : (s.goto c).err = s.err := rfl
@[simp] theorem goto_pending (c : Ctl) : (s.goto c).pending = s.pending := rfl
@[simp] theorem goto_reads (c : Ctl) : (s.goto c).reads = s.reads := rfl
@[simp] theorem goto_draws (c : Ctl) : (s.goto c).draws = s.draws := rfl

/-! Acceptance (30_encoding.md R90 line 5) writes `OP`, `DONE` and `ST`. -/

@[simp] theorem accept_n (i : Instr) : (s.accept i).n = s.n := rfl
@[simp] theorem accept_a (i : Instr) : (s.accept i).a = s.a := rfl
@[simp] theorem accept_d (i : Instr) : (s.accept i).d = s.d := rfl
@[simp] theorem accept_s (i : Instr) : (s.accept i).s = s.s := rfl
@[simp] theorem accept_r (i : Instr) : (s.accept i).r = s.r := rfl
@[simp] theorem accept_x (i : Instr) : (s.accept i).x = s.x := rfl
@[simp] theorem accept_y (i : Instr) : (s.accept i).y = s.y := rfl
@[simp] theorem accept_base (i : Instr) : (s.accept i).base = s.base := rfl
@[simp] theorem accept_exp (i : Instr) : (s.accept i).exp = s.exp := rfl
@[simp] theorem accept_cnt (i : Instr) : (s.accept i).cnt = s.cnt := rfl
@[simp] theorem accept_row (i : Instr) : (s.accept i).row = s.row := rfl
@[simp] theorem accept_wi (i : Instr) : (s.accept i).wi = s.wi := rfl
@[simp] theorem accept_op (i : Instr) : (s.accept i).op = i.opcode := rfl
@[simp] theorem accept_st (i : Instr) : (s.accept i).st = entryState i := rfl
@[simp] theorem accept_done (i : Instr) : (s.accept i).done = false := rfl
@[simp] theorem accept_v (i : Instr) : (s.accept i).v = s.v := rfl
@[simp] theorem accept_ovr (i : Instr) : (s.accept i).ovr = s.ovr := rfl
@[simp] theorem accept_err (i : Instr) : (s.accept i).err = s.err := rfl
@[simp] theorem accept_pending (i : Instr) : (s.accept i).pending = s.pending := rfl
@[simp] theorem accept_reads (i : Instr) : (s.accept i).reads = s.reads := rfl
@[simp] theorem accept_draws (i : Instr) : (s.accept i).draws = s.draws := rfl

/-! Taking a fault (60_exceptions.md R208) writes `ERR`, `ST` and `DONE`. -/

@[simp] theorem raiseFault_n (c : Nibble) : (s.raiseFault c).n = s.n := rfl
@[simp] theorem raiseFault_a (c : Nibble) : (s.raiseFault c).a = s.a := rfl
@[simp] theorem raiseFault_d (c : Nibble) : (s.raiseFault c).d = s.d := rfl
@[simp] theorem raiseFault_s (c : Nibble) : (s.raiseFault c).s = s.s := rfl
@[simp] theorem raiseFault_r (c : Nibble) : (s.raiseFault c).r = s.r := rfl
@[simp] theorem raiseFault_x (c : Nibble) : (s.raiseFault c).x = s.x := rfl
@[simp] theorem raiseFault_y (c : Nibble) : (s.raiseFault c).y = s.y := rfl
@[simp] theorem raiseFault_base (c : Nibble) : (s.raiseFault c).base = s.base := rfl
@[simp] theorem raiseFault_exp (c : Nibble) : (s.raiseFault c).exp = s.exp := rfl
@[simp] theorem raiseFault_cnt (c : Nibble) : (s.raiseFault c).cnt = s.cnt := rfl
@[simp] theorem raiseFault_row (c : Nibble) : (s.raiseFault c).row = s.row := rfl
@[simp] theorem raiseFault_wi (c : Nibble) : (s.raiseFault c).wi = s.wi := rfl
@[simp] theorem raiseFault_op (c : Nibble) : (s.raiseFault c).op = s.op := rfl
@[simp] theorem raiseFault_st (c : Nibble) : (s.raiseFault c).st = .fault := rfl
@[simp] theorem raiseFault_done (c : Nibble) : (s.raiseFault c).done = false := rfl
@[simp] theorem raiseFault_v (c : Nibble) : (s.raiseFault c).v = s.v := rfl
@[simp] theorem raiseFault_ovr (c : Nibble) : (s.raiseFault c).ovr = s.ovr := rfl
@[simp] theorem raiseFault_err (c : Nibble) : (s.raiseFault c).err = c := rfl
@[simp] theorem raiseFault_pending (c : Nibble) : (s.raiseFault c).pending = s.pending := rfl
@[simp] theorem raiseFault_reads (c : Nibble) : (s.raiseFault c).reads = s.reads := rfl
@[simp] theorem raiseFault_draws (c : Nibble) : (s.raiseFault c).draws = s.draws := rfl

/-! Reset (70_reset_and_hazards.md R231) writes every item of the block's state. -/

@[simp] theorem resetBlock_n : (s.resetBlock).n = 0 := rfl
@[simp] theorem resetBlock_a : (s.resetBlock).a = 0 := rfl
@[simp] theorem resetBlock_d : (s.resetBlock).d = 0 := rfl
@[simp] theorem resetBlock_s : (s.resetBlock).s = 0 := rfl
@[simp] theorem resetBlock_r : (s.resetBlock).r = 0 := rfl
@[simp] theorem resetBlock_x : (s.resetBlock).x = 0 := rfl
@[simp] theorem resetBlock_y : (s.resetBlock).y = 0 := rfl
@[simp] theorem resetBlock_base : (s.resetBlock).base = 0 := rfl
@[simp] theorem resetBlock_exp : (s.resetBlock).exp = 0 := rfl
@[simp] theorem resetBlock_cnt : (s.resetBlock).cnt = 0 := rfl
@[simp] theorem resetBlock_row : (s.resetBlock).row = 0 := rfl
@[simp] theorem resetBlock_wi : (s.resetBlock).wi = 0 := rfl
@[simp] theorem resetBlock_op : (s.resetBlock).op = 0 := rfl
@[simp] theorem resetBlock_st : (s.resetBlock).st = .idle := rfl
@[simp] theorem resetBlock_done : (s.resetBlock).done = false := rfl
@[simp] theorem resetBlock_v : (s.resetBlock).v = false := rfl
@[simp] theorem resetBlock_ovr : (s.resetBlock).ovr = false := rfl
@[simp] theorem resetBlock_err : (s.resetBlock).err = 0 := rfl
@[simp] theorem resetBlock_pending : (s.resetBlock).pending = s.pending := rfl
@[simp] theorem resetBlock_reads : (s.resetBlock).reads = s.reads := rfl
@[simp] theorem resetBlock_draws : (s.resetBlock).draws = s.draws := rfl

/-! `wt_exit` (42_witness.md R138) writes `V`, `ST` and, for `WTEST`, `DONE`. -/

@[simp] theorem wtExit_n (b : Bool) : (s.wtExit b).n = s.n := by
  unfold State.wtExit; split <;> rfl
@[simp] theorem wtExit_a (b : Bool) : (s.wtExit b).a = s.a := by
  unfold State.wtExit; split <;> rfl
@[simp] theorem wtExit_d (b : Bool) : (s.wtExit b).d = s.d := by
  unfold State.wtExit; split <;> rfl
@[simp] theorem wtExit_s (b : Bool) : (s.wtExit b).s = s.s := by
  unfold State.wtExit; split <;> rfl
@[simp] theorem wtExit_r (b : Bool) : (s.wtExit b).r = s.r := by
  unfold State.wtExit; split <;> rfl
@[simp] theorem wtExit_x (b : Bool) : (s.wtExit b).x = s.x := by
  unfold State.wtExit; split <;> rfl
@[simp] theorem wtExit_y (b : Bool) : (s.wtExit b).y = s.y := by
  unfold State.wtExit; split <;> rfl
@[simp] theorem wtExit_base (b : Bool) : (s.wtExit b).base = s.base := by
  unfold State.wtExit; split <;> rfl
@[simp] theorem wtExit_exp (b : Bool) : (s.wtExit b).exp = s.exp := by
  unfold State.wtExit; split <;> rfl
@[simp] theorem wtExit_cnt (b : Bool) : (s.wtExit b).cnt = s.cnt := by
  unfold State.wtExit; split <;> rfl
@[simp] theorem wtExit_row (b : Bool) : (s.wtExit b).row = s.row := by
  unfold State.wtExit; split <;> rfl
@[simp] theorem wtExit_wi (b : Bool) : (s.wtExit b).wi = s.wi := by
  unfold State.wtExit; split <;> rfl
@[simp] theorem wtExit_op (b : Bool) : (s.wtExit b).op = s.op := by
  unfold State.wtExit; split <;> rfl
@[simp] theorem wtExit_ovr (b : Bool) : (s.wtExit b).ovr = s.ovr := by
  unfold State.wtExit; split <;> rfl
@[simp] theorem wtExit_err (b : Bool) : (s.wtExit b).err = s.err := by
  unfold State.wtExit; split <;> rfl
@[simp] theorem wtExit_pending (b : Bool) : (s.wtExit b).pending = s.pending := by
  unfold State.wtExit; split <;> rfl
@[simp] theorem wtExit_reads (b : Bool) : (s.wtExit b).reads = s.reads := by
  unfold State.wtExit; split <;> rfl
@[simp] theorem wtExit_draws (b : Bool) : (s.wtExit b).draws = s.draws := by
  unfold State.wtExit; split <;> rfl

@[simp] theorem wtExit_v (b : Bool) : (s.wtExit b).v = b := by
  unfold State.wtExit; split <;> rfl

/-! Selecting a row (43_sieve.md R163) writes `ST` and, for `WSEL`, `DONE`. -/

@[simp] theorem rowSelected_n : (s.rowSelected).n = s.n := by
  unfold State.rowSelected; split <;> rfl
@[simp] theorem rowSelected_a : (s.rowSelected).a = s.a := by
  unfold State.rowSelected; split <;> rfl
@[simp] theorem rowSelected_d : (s.rowSelected).d = s.d := by
  unfold State.rowSelected; split <;> rfl
@[simp] theorem rowSelected_s : (s.rowSelected).s = s.s := by
  unfold State.rowSelected; split <;> rfl
@[simp] theorem rowSelected_r : (s.rowSelected).r = s.r := by
  unfold State.rowSelected; split <;> rfl
@[simp] theorem rowSelected_x : (s.rowSelected).x = s.x := by
  unfold State.rowSelected; split <;> rfl
@[simp] theorem rowSelected_y : (s.rowSelected).y = s.y := by
  unfold State.rowSelected; split <;> rfl
@[simp] theorem rowSelected_base : (s.rowSelected).base = s.base := by
  unfold State.rowSelected; split <;> rfl
@[simp] theorem rowSelected_exp : (s.rowSelected).exp = s.exp := by
  unfold State.rowSelected; split <;> rfl
@[simp] theorem rowSelected_cnt : (s.rowSelected).cnt = s.cnt := by
  unfold State.rowSelected; split <;> rfl
@[simp] theorem rowSelected_row : (s.rowSelected).row = s.row := by
  unfold State.rowSelected; split <;> rfl
@[simp] theorem rowSelected_wi : (s.rowSelected).wi = s.wi := by
  unfold State.rowSelected; split <;> rfl
@[simp] theorem rowSelected_op : (s.rowSelected).op = s.op := by
  unfold State.rowSelected; split <;> rfl
@[simp] theorem rowSelected_v : (s.rowSelected).v = s.v := by
  unfold State.rowSelected; split <;> rfl
@[simp] theorem rowSelected_ovr : (s.rowSelected).ovr = s.ovr := by
  unfold State.rowSelected; split <;> rfl
@[simp] theorem rowSelected_err : (s.rowSelected).err = s.err := by
  unfold State.rowSelected; split <;> rfl
@[simp] theorem rowSelected_pending : (s.rowSelected).pending = s.pending := by
  unfold State.rowSelected; split <;> rfl
@[simp] theorem rowSelected_reads : (s.rowSelected).reads = s.reads := by
  unfold State.rowSelected; split <;> rfl
@[simp] theorem rowSelected_draws : (s.rowSelected).draws = s.draws := by
  unfold State.rowSelected; split <;> rfl

/-! A host store (20_memory.md R55) writes one of `N`, `A`, `D`, `S` or nothing. -/

@[simp] theorem storeWord_r (addr : WordIndex) (w : Word) : (s.storeWord addr w).r = s.r := by
  unfold State.storeWord; split <;> rfl
@[simp] theorem storeWord_x (addr : WordIndex) (w : Word) : (s.storeWord addr w).x = s.x := by
  unfold State.storeWord; split <;> rfl
@[simp] theorem storeWord_y (addr : WordIndex) (w : Word) : (s.storeWord addr w).y = s.y := by
  unfold State.storeWord; split <;> rfl
@[simp] theorem storeWord_base (addr : WordIndex) (w : Word) : (s.storeWord addr w).base = s.base := by
  unfold State.storeWord; split <;> rfl
@[simp] theorem storeWord_exp (addr : WordIndex) (w : Word) : (s.storeWord addr w).exp = s.exp := by
  unfold State.storeWord; split <;> rfl
@[simp] theorem storeWord_cnt (addr : WordIndex) (w : Word) : (s.storeWord addr w).cnt = s.cnt := by
  unfold State.storeWord; split <;> rfl
@[simp] theorem storeWord_row (addr : WordIndex) (w : Word) : (s.storeWord addr w).row = s.row := by
  unfold State.storeWord; split <;> rfl
@[simp] theorem storeWord_wi (addr : WordIndex) (w : Word) : (s.storeWord addr w).wi = s.wi := by
  unfold State.storeWord; split <;> rfl
@[simp] theorem storeWord_op (addr : WordIndex) (w : Word) : (s.storeWord addr w).op = s.op := by
  unfold State.storeWord; split <;> rfl
@[simp] theorem storeWord_st (addr : WordIndex) (w : Word) : (s.storeWord addr w).st = s.st := by
  unfold State.storeWord; split <;> rfl
@[simp] theorem storeWord_done (addr : WordIndex) (w : Word) : (s.storeWord addr w).done = s.done := by
  unfold State.storeWord; split <;> rfl
@[simp] theorem storeWord_v (addr : WordIndex) (w : Word) : (s.storeWord addr w).v = s.v := by
  unfold State.storeWord; split <;> rfl
@[simp] theorem storeWord_ovr (addr : WordIndex) (w : Word) : (s.storeWord addr w).ovr = s.ovr := by
  unfold State.storeWord; split <;> rfl
@[simp] theorem storeWord_err (addr : WordIndex) (w : Word) : (s.storeWord addr w).err = s.err := by
  unfold State.storeWord; split <;> rfl
@[simp] theorem storeWord_pending (addr : WordIndex) (w : Word) : (s.storeWord addr w).pending = s.pending := by
  unfold State.storeWord; split <;> rfl
@[simp] theorem storeWord_reads (addr : WordIndex) (w : Word) : (s.storeWord addr w).reads = s.reads := by
  unfold State.storeWord; split <;> rfl
@[simp] theorem storeWord_draws (addr : WordIndex) (w : Word) : (s.storeWord addr w).draws = s.draws := by
  unfold State.storeWord; split <;> rfl

end

end Sys2Proof.Machine
end

