-- ==== Sys2Proof/Laws/Ops.lean ====
section
/-! SUPPORT. What each shared operation can do, said once. -/

namespace Sys2Proof.Machine

/-! ## Values that may not exist -/

@[simp] theorem orStop_some {α : Type} (v : α) (why : Fault) (go : α → Result) :
    orStop (some v) why go = go v := rfl

@[simp] theorem orStop_none {α : Type} (why : Fault) (go : α → Result) :
    orStop none why go = .fault why := rfl

theorem orStop_next {α : Type} {value : Option α} {why : Fault} {go : α → Result} {t : State} :
    orStop value why go = .next t ↔ ∃ v, value = some v ∧ go v = .next t := by
  cases value <;> simp

theorem mulmod_of_ne_zero {m : Word} (a b : Word) (h : m ≠ 0) : mulmod a b m = some (mulRem a b m) :=
  if_neg h

@[simp] theorem mulmod_zero (a b : Word) : mulmod a b 0 = none := rfl

theorem mulmod_eq_some {a b m p : Word} : mulmod a b m = some p ↔ m ≠ 0 ∧ mulRem a b m = p := by
  unfold mulmod; split <;> simp_all

theorem oneMod_of_ne_zero {m : Word} (h : m ≠ 0) : oneMod m = some (oneRem m) := if_neg h

theorem oneMod_eq_some {m p : Word} : oneMod m = some p ↔ m ≠ 0 ∧ oneRem m = p := by
  unfold oneMod; split <;> simp_all

theorem predecessor_of_ne_zero {v : Word} (h : v ≠ 0) : predecessor v = some (v - 1) := if_neg h

theorem predecessor_eq_some {v p : Word} : predecessor v = some p ↔ v ≠ 0 ∧ v - 1 = p := by
  unfold predecessor; split <;> simp_all

theorem successor_eq_some {w : Nat} {v p : BitVec w} :
    successor v = some p ↔ v.toNat + 1 < 2 ^ w ∧ v + 1 = p := by
  unfold successor; split <;> simp_all

/-! ## Arithmetic as numbers -/

theorem word_pos {m : Word} (h : m ≠ 0) : 0 < m.toNat :=
  Nat.pos_of_ne_zero fun h0 => h (BitVec.eq_of_toNat_eq h0)

theorem mulRem_toNat (a b : Word) {m : Word} (h : m ≠ 0) :
    (mulRem a b m).toNat = a.toNat * b.toNat % m.toNat := by
  rw [mulRem, BitVec.toNat_ofNat]
  exact Nat.mod_eq_of_lt ((Nat.mod_lt _ (word_pos h)).trans m.isLt)

theorem oneRem_toNat {m : Word} (h : m ≠ 0) : (oneRem m).toNat = 1 % m.toNat := by
  rw [oneRem, BitVec.toNat_ofNat]
  exact Nat.mod_eq_of_lt ((Nat.mod_lt _ (word_pos h)).trans m.isLt)

theorem pred_toNat {v : Word} (h : v ≠ 0) : (v - 1).toNat = v.toNat - 1 := by
  have := word_pos h
  bv_omega

theorem half_toNat (v : Word) : (half v).toNat = v.toNat / 2 := by
  simp [half, Nat.shiftRight_eq_div_pow]

theorem isOdd_iff (v : Word) : isOdd v = true ↔ v.toNat % 2 = 1 := by
  simp [isOdd, BitVec.getLsbD, Nat.testBit_zero]

theorem isOdd_false_iff (v : Word) : isOdd v = false ↔ v.toNat % 2 = 0 := by
  rw [← Bool.not_eq_true, isOdd_iff]; omega

/-! ## The command protocol -/

theorem busy_eq_false_iff (s : State) : s.busy = false ↔ s.st = .idle ∨ s.st = .fault := by
  unfold State.busy; split <;> simp_all

theorem whenIdle_of_idle {s : State} (effect : State) (h : s.st = .idle) : whenIdle s effect = effect := by
  simp [whenIdle, h]

theorem whenIdle_of_fault {s : State} (effect : State) (h : s.st = .fault) : whenIdle s effect = s := by
  simp [whenIdle, h]

theorem whenIdle_of_busy {s : State} (effect : State) (h : s.busy = true) :
    whenIdle s effect = { s with ovr := true } := by
  unfold whenIdle; unfold State.busy at h; split <;> simp_all

/-- Everything the gate of a host write can do (20_memory.md R55). -/
theorem whenIdle_cases (s effect : State) :
    (s.st = .idle ∧ whenIdle s effect = effect) ∨ (s.st = .fault ∧ whenIdle s effect = s) ∨
      (s.busy = true ∧ whenIdle s effect = { s with ovr := true }) := by
  cases hb : s.busy with
  | true => exact .inr (.inr ⟨rfl, whenIdle_of_busy _ hb⟩)
  | false =>
    rcases (busy_eq_false_iff s).1 hb with h | h
    · exact .inl ⟨h, whenIdle_of_idle _ h⟩
    · exact .inr (.inl ⟨h, whenIdle_of_fault _ h⟩)

/-- Everything `wt_exit` can do (42_witness.md R138). -/
theorem wtExit_cases (s : State) (b : Bool) :
    (s.op = 3 ∧ s.wtExit b = { s with v := b, done := true, st := .idle }) ∨
      (s.op ≠ 3 ∧ s.wtExit b = { s with v := b, st := .svNext }) := by
  by_cases h : s.op = 3
  · exact .inl ⟨h, if_pos h⟩
  · exact .inr ⟨h, if_neg h⟩

/-- Everything selecting a row can do (43_sieve.md R163). -/
theorem rowSelected_cases (s : State) :
    (s.op = 5 ∧ s.rowSelected = { s with done := true, st := .idle }) ∨
      (s.op ≠ 5 ∧ s.rowSelected = { s with st := .svWit }) := by
  by_cases h : s.op = 5
  · exact .inl ⟨h, if_pos h⟩
  · exact .inr ⟨h, if_neg h⟩

/-- Everything a host store can do (20_memory.md R55 cases (d), (e)). -/
theorem storeWord_cases (s : State) (addr : WordIndex) (w : Word) :
    (addr = 0x002 ∧ s.storeWord addr w = { s with n := w }) ∨
      (addr = 0x003 ∧ s.storeWord addr w = { s with a := w }) ∨
      (addr = 0x004 ∧ s.storeWord addr w = { s with d := w }) ∨
      (addr = 0x005 ∧ s.storeWord addr w = { s with s := w }) ∨
      ((addr.toNat < 2 ∨ 5 < addr.toNat) ∧ s.storeWord addr w = s) := by
  unfold State.storeWord
  split
  · next h => exact .inl ⟨BitVec.eq_of_toNat_eq h, rfl⟩
  · next h => exact .inr (.inl ⟨BitVec.eq_of_toNat_eq h, rfl⟩)
  · next h => exact .inr (.inr (.inl ⟨BitVec.eq_of_toNat_eq h, rfl⟩))
  · next h => exact .inr (.inr (.inr (.inl ⟨BitVec.eq_of_toNat_eq h, rfl⟩)))
  · next h2 h3 h4 h5 =>
    have h2 : addr.toNat ≠ 2 := h2
    have h3 : addr.toNat ≠ 3 := h3
    have h4 : addr.toNat ≠ 4 := h4
    have h5 : addr.toNat ≠ 5 := h5
    exact .inr (.inr (.inr (.inr ⟨by omega, rfl⟩)))

end Sys2Proof.Machine
end

