-- ==== Sys2Proof/Laws/PerInstr.lean ====
section
/-! SUPPORT. Facts about every command as syntax, one lemma per constructor. -/

/-- The encoder's word for a command is a legal command word with the command's opcode in bits 2:0 (30_encoding.md R80,
R83). -/
def Sys2Proof.Laws.EncodedWordLegal.Statement (i : Sys2Proof.Instr) : Prop :=
  i.wf = true ∧ Sys2Proof.wordWf (Sys2Proof.encode i) = true ∧
    Sys2Proof.opcodeField (Sys2Proof.encode i) = i.opcode

namespace Sys2Proof.Laws.EncodedWordLegal

theorem mulmod : Statement .mulmod := by unfold Statement; decide
theorem modexp : Statement .modexp := by unfold Statement; decide
theorem wtest : Statement .wtest := by unfold Statement; decide
theorem decomp : Statement .decomp := by unfold Statement; decide
theorem wsel : Statement .wsel := by unfold Statement; decide
theorem isprime : Statement .isprime := by unfold Statement; decide

end Sys2Proof.Laws.EncodedWordLegal
end

