-- ==== Sys2Proof/Laws/Rom.lean ====
section
/-! SUPPORT. Facts about the witness ROM that the proofs about the sieve cite. -/

namespace Sys2Proof.Machine

@[simp] theorem romTable_length : romTable.length = 12 := rfl

/-- `wsel` always names a row: the last one admits every `n`. -/
theorem wsel_lt (n : Word) : wsel n < 12 := by
  have h : wsel n < romTable.length :=
    List.findIdx_lt_length_of_exists ⟨(none, romWitnesses 11), by simp [romTable, romWitnesses], rfl⟩
  simpa using h

/-- `RomCount` and `RomWit` agree: a row has `RomCount(r)` witnesses (44_wrom.md R182, R183). -/
theorem romCount_eq_some {r c : Nat} (h : romCount r = some c) : (romWitnesses r).length = c := by
  unfold romCount at h
  unfold romWitnesses
  cases hr : romTable[r]? with
  | none => simp [hr] at h
  | some row => simpa [hr] using h

/-- A witness read names a slot of its row. -/
theorem romWit_isSome (r k : Nat) : (romWit r k).isSome = true ↔ k < (romWitnesses r).length := by
  simp [romWit]

end Sys2Proof.Machine
end

