-- ==== Sys2Proof/Laws/Tick.lean ====
section
/-! SUPPORT. What a step can do, said once: the controller's states one by one, then the host's transactions. -/

namespace Sys2Proof.Machine

section
variable {s t : State}

/-! ## The engine and the multiplier -/

theorem tickMmRun_next (h : tickMmRun s = .next t) :
    s.n ≠ 0 ∧ t = { s with r := mulRem s.a s.d s.n, done := true, st := .idle } := by
  simp only [tickMmRun, orStop_next, mulmod_eq_some] at h
  obtain ⟨p, ⟨hn, rfl⟩, ht⟩ := h
  exact ⟨hn, by cases ht; rfl⟩

theorem tickMeInit_next (h : tickMeInit s = .next t) :
    s.n ≠ 0 ∧ t = { s with r := oneRem s.n, base := s.a, exp := s.d, st := .meTest } := by
  simp only [tickMeInit, orStop_next, oneMod_eq_some] at h
  obtain ⟨p, ⟨hn, rfl⟩, ht⟩ := h
  exact ⟨hn, by cases ht; rfl⟩

theorem tickMeTest_next (h : tickMeTest s = .next t) :
    (s.exp = 0 ∧ s.op = 2 ∧ t = { s with done := true, st := .idle }) ∨
      (s.exp = 0 ∧ s.op ≠ 2 ∧ t = { s with st := .wtLoad }) ∨
      (s.exp ≠ 0 ∧ isOdd s.exp = true ∧ t = { s with st := .meMul }) ∨
      (s.exp ≠ 0 ∧ isOdd s.exp = false ∧ t = { s with st := .meSqr }) := by
  simp only [tickMeTest, State.finish, State.goto] at h
  cases h
  by_cases h0 : s.exp = 0 <;> by_cases h2 : s.op = 2 <;> cases ho : isOdd s.exp <;> simp_all

theorem tickMeMul_next (h : tickMeMul s = .next t) :
    s.n ≠ 0 ∧ t = { s with r := mulRem s.r s.base s.n, st := .meSqr } := by
  simp only [tickMeMul, orStop_next, mulmod_eq_some] at h
  obtain ⟨p, ⟨hn, rfl⟩, ht⟩ := h
  exact ⟨hn, by cases ht; rfl⟩

theorem tickMeSqr_next (h : tickMeSqr s = .next t) :
    s.n ≠ 0 ∧ t = { s with base := mulRem s.base s.base s.n, exp := half s.exp, st := .meTest } := by
  simp only [tickMeSqr, orStop_next, mulmod_eq_some] at h
  obtain ⟨p, ⟨hn, rfl⟩, ht⟩ := h
  exact ⟨hn, by cases ht; rfl⟩

/-! ## The witness test -/

theorem tickWtLoad_next (h : tickWtLoad s = .next t) :
    t = { s with x := s.r, cnt := s.s, st := .wtSqr } := by cases h; rfl

theorem tickWtSqr_next (h : tickWtSqr s = .next t) :
    s.n ≠ 0 ∧ t = { s with y := mulRem s.x s.x s.n, st := .wtChk } := by
  simp only [tickWtSqr, orStop_next, mulmod_eq_some] at h
  obtain ⟨p, ⟨hn, rfl⟩, ht⟩ := h
  exact ⟨hn, by cases ht; rfl⟩

theorem tickWtChk_next (h : tickWtChk s = .next t) :
    s.n ≠ 0 ∧ ((nontrivialRoot s.n s.x s.y = true ∧ t = s.wtExit false) ∨
      (nontrivialRoot s.n s.x s.y = false ∧ s.cnt ≠ 0 ∧ t = { s with
        x := s.y, cnt := s.cnt - 1, st := if s.cnt - 1 = 0 then .wtFin else .wtSqr })) := by
  simp only [tickWtChk, orStop_next, predecessor_eq_some] at h
  obtain ⟨p, ⟨hn, rfl⟩, ht⟩ := h
  refine ⟨hn, ?_⟩
  split at ht
  · next hr => cases ht; exact .inl ⟨decide_eq_true hr, rfl⟩
  · next hr =>
    simp only [orStop_next, predecessor_eq_some] at ht
    obtain ⟨c, ⟨hc, rfl⟩, ht⟩ := ht
    cases ht
    exact .inr ⟨decide_eq_false hr, hc, rfl⟩

theorem tickWtFin_next (h : tickWtFin s = .next t) : t = s.wtExit (decide (s.y = 1)) := by cases h; rfl

/-! ## The sieve -/

theorem tickSvQuick_next (h : tickSvQuick s = .next t) :
    (∃ b, quickVerdict s.n = some b ∧ t = { s with v := b, done := true, st := .idle }) ∨
      (quickVerdict s.n = none ∧ t = { s with st := .svDec0 }) := by
  simp only [tickSvQuick] at h
  cases h
  cases hq : quickVerdict s.n with
  | none => exact .inr ⟨rfl, rfl⟩
  | some b => exact .inl ⟨b, rfl, rfl⟩

theorem tickSvDec0_next (h : tickSvDec0 s = .next t) :
    s.n ≠ 0 ∧ t = { s with d := half (s.n - 1), s := 1, st := .svDec } := by
  simp only [tickSvDec0, orStop_next, predecessor_eq_some] at h
  obtain ⟨p, ⟨hn, rfl⟩, ht⟩ := h
  exact ⟨hn, by cases ht; rfl⟩

theorem tickSvDec_next (h : tickSvDec s = .next t) :
    (isOdd s.d = true ∧ s.op = 4 ∧ t = { s with done := true, st := .idle }) ∨
      (isOdd s.d = true ∧ s.op ≠ 4 ∧ t = { s with st := .svSel0 }) ∨
      (isOdd s.d = false ∧ s.s.toNat + 1 < 2 ^ 64 ∧ t = { s with d := half s.d, s := s.s + 1 }) := by
  unfold tickSvDec at h
  split at h
  · next ho =>
    cases h
    by_cases h4 : s.op = 4
    · exact .inl ⟨ho, h4, if_pos h4⟩
    · exact .inr (.inl ⟨ho, h4, if_neg h4⟩)
  · next ho =>
    simp only [orStop_next, successor_eq_some] at h
    obtain ⟨p, ⟨hs, rfl⟩, ht⟩ := h
    cases ht
    exact .inr (.inr ⟨by simpa using ho, hs, rfl⟩)

theorem tickSvSel0_next (h : tickSvSel0 s = .next t) :
    t = { s with row := 0, wi := 0, st := .svScan } := by cases h; rfl

theorem tickSvScan_next (h : tickSvScan s = .next t) :
    (s.row = 11 ∧ t = s.rowSelected) ∨
      (∃ bound, s.row ≠ 11 ∧ romBound s.row.toNat = some bound ∧
        ((s.n.toNat < bound.toNat ∧ t = s.rowSelected) ∨
          (bound.toNat ≤ s.n.toNat ∧ t = { s with row := s.row + 1 }))) := by
  unfold tickSvScan at h
  split at h
  · next hr => cases h; exact .inl ⟨hr, rfl⟩
  · next hr =>
    simp only [orStop_next] at h
    obtain ⟨bound, hb, ht⟩ := h
    refine .inr ⟨bound, hr, hb, ?_⟩
    split at ht
    · next hlt => cases ht; exact .inl ⟨hlt, rfl⟩
    · next hlt =>
      simp only [orStop_next, successor_eq_some] at ht
      obtain ⟨p, ⟨-, rfl⟩, ht⟩ := ht
      cases ht
      exact .inr ⟨by omega, rfl⟩

theorem tickSvWit_next (h : tickSvWit s = .next t) :
    ∃ w, romWit s.row.toNat s.wi.toNat = some w ∧ t = { s with a := w, st := .meInit } := by
  simp only [tickSvWit, orStop_next] at h
  obtain ⟨w, hw, ht⟩ := h
  exact ⟨w, hw, by cases ht; rfl⟩

theorem tickSvNext_next (h : tickSvNext s = .next t) :
    (s.v = false ∧ t = { s with done := true, st := .idle }) ∨
      (s.v = true ∧ romCount s.row.toNat = some (s.wi.toNat + 1) ∧ t = { s with done := true, st := .idle }) ∨
      (∃ count, s.v = true ∧ romCount s.row.toNat = some count ∧ s.wi.toNat + 1 ≠ count ∧
        s.wi.toNat + 1 < 2 ^ 4 ∧ t = { s with wi := s.wi + 1, st := .svWit }) := by
  unfold tickSvNext at h
  split at h
  · next hv => cases h; exact .inl ⟨hv, rfl⟩
  · next hv =>
    have hv : s.v = true := by simpa using hv
    simp only [orStop_next] at h
    obtain ⟨count, hc, ht⟩ := h
    split at ht
    · next he => cases ht; exact .inr (.inl ⟨hv, he ▸ hc, rfl⟩)
    · next he =>
      simp only [orStop_next, successor_eq_some] at ht
      obtain ⟨p, ⟨hw, rfl⟩, ht⟩ := ht
      cases ht
      exact .inr (.inr ⟨count, hv, hc, he, hw, rfl⟩)

end

/-! ## Runs of `Tick`s -/

@[simp] theorem ticks_zero (s : State) : ticks 0 s = .next s := rfl

theorem ticks_succ_of_tick {s t : State} (k : Nat) (h : tick s = .next t) : ticks (k + 1) s = ticks k t := by
  simp [ticks, h]

theorem ticks_add {s t : State} {j : Nat} (k : Nat) (h : ticks j s = .next t) : ticks (j + k) s = ticks k t := by
  induction j generalizing s with
  | zero => cases h; simp
  | succ j ih =>
    cases ht : tick s with
    | next u =>
      rw [ticks_succ_of_tick _ ht] at h
      rw [Nat.succ_add, ticks_succ_of_tick _ ht]
      exact ih h
    | fault why => simp [ticks, ht] at h
    | refused why => simp [ticks, ht] at h

/-! ## The host's transactions -/

/-- What writing each command's word does when the block is idle: the checks of 30_encoding.md R90 lines 2 to 4, then
line 5. -/
def issued (i : Instr) (s : State) : State :=
  match i with
  | .mulmod | .modexp => if s.n = 0 then s.raiseFault zeroModulus else s.accept i
  | .wtest => if s.n = 0 then s.raiseFault zeroModulus else if s.s = 0 then s.raiseFault zeroS else s.accept i
  | .decomp => if decompInDomain s.n then s.accept i else s.raiseFault decompDomain
  | .wsel | .isprime => s.accept i

theorem exec_eq (i : Instr) (s : State) : exec i s = .next (whenIdle s (issued i s)) := by
  cases i <;> rfl

/-- Everything a host read can do (20_memory.md R54): the block's state does not change. -/
theorem hostRead_cases (addr : WordIndex) (s : State) :
    (∃ v, s.hostWord addr = some v ∧ hostRead addr s = { s with reads := v :: s.reads }) ∨
      (s.hostWord addr = none ∧
        hostRead addr s = { s with reads := Config.busyRead s.draws :: s.reads, draws := s.draws + 1 }) := by
  unfold hostRead
  cases h : s.hostWord addr with
  | some v => exact .inl ⟨v, rfl, rfl⟩
  | none => exact .inr ⟨rfl, rfl⟩

/-- Everything a host write can do (20_memory.md R55): it always answers a next state. -/
theorem hostWrite_eq (addr : WordIndex) (v : Word) (s : State) :
    hostWrite addr v s = .next (whenIdle s (if addr = 0x000 then
      (match decode v with
        | some i => issued i s
        | none => s.raiseFault illegalCmd) else s.storeWord addr v)) := by
  cases h : s.st
  case idle =>
    simp only [hostWrite, h, whenIdle_of_idle _ h]
    split
    · unfold issueWord
      cases decode v with
      | none => rfl
      | some i => simp only [exec_eq, whenIdle_of_idle _ h]
    · rfl
  all_goals simp [hostWrite, whenIdle, h]

end Sys2Proof.Machine
end

