-- ==== Sys2Proof/Tests/Slice0.lean ====
section
/-! SUPPORT. Tests, with expected results taken from spec/ (each names its source), and a witness for the hypotheses of every
statement of Certificates/Slice0/Obligations.lean. -/

namespace Sys2Proof.Tests

open Sys2Proof Sys2Proof.Machine

/-- An idle block with its operands written. -/
def idleWith (n a d s : Word) : State := { State.reset with n := n, a := a, d := d, s := s }

/-- A block in controller state `st` of command `op`. -/
def running (op : Opcode) (st : Ctl) (n : Word) : State := { State.reset with op := op, st := st, n := n }

/-- A field of the next state a step answers. -/
def after {α : Type} (r : Result) (field : State → α) : Option α :=
  match r with
  | .next t => some (field t)
  | _ => none

/-! ## Decoding (30_encoding.md R80, R81): bits 63:3 zero, then the opcode -/

theorem test_decode_mulmod :
    decode 0b0000000000000000000000000000000000000000000000000000000000000001 = some .mulmod := by decide
theorem test_decode_modexp :
    decode 0b0000000000000000000000000000000000000000000000000000000000000010 = some .modexp := by decide
theorem test_decode_wtest :
    decode 0b0000000000000000000000000000000000000000000000000000000000000011 = some .wtest := by decide
theorem test_decode_decomp :
    decode 0b0000000000000000000000000000000000000000000000000000000000000100 = some .decomp := by decide
theorem test_decode_wsel :
    decode 0b0000000000000000000000000000000000000000000000000000000000000101 = some .wsel := by decide
theorem test_decode_isprime :
    decode 0b0000000000000000000000000000000000000000000000000000000000000110 = some .isprime := by decide
/-- 96_test_vectors_host.md V-FT rows 1, 2, 13, 14, 16. -/
theorem test_decode_illegal :
    decode 0 = none ∧ decode 7 = none ∧ decode 0x8000000000000006 = none ∧ decode 0x0000000100000006 = none ∧
      decode 8 = none := by decide
theorem test_decode_table_words :
    [1, 2, 3, 4, 5, 6].map (decodeTableWord 64) = Instr.all.map some ∧ decodeTableWord 72 (2 ^ 64 + 1) = none := by decide

/-! ## Well-formedness refuses an ill-formed term of each check (30_encoding.md R80, R83, R88) -/

theorem test_wf_zero_field : wordZeroFieldOk 0x0000000000000009 = false ∧ wordWf 0x8000000000000006 = false := by decide
theorem test_wf_opcode : wordOpcodeOk 0 = false ∧ wordOpcodeOk 7 = false ∧ wordWf 7 = false := by decide
theorem test_wf_legal : [1, 2, 3, 4, 5, 6].all wordWf = true ∧ Instr.all.all Instr.wf = true := by decide
theorem test_wf_register_names :
    RegName.wf (.bound 11) = false ∧ RegName.wf (.wcnt 12) = false ∧ RegName.wf (.wit 12 0) = false ∧
      RegName.wf (.wit 0 16) = false ∧ RegName.wf (.wit 11 15) = true := by decide
theorem test_wf_script_values :
    scriptValueOk (2 ^ 64) = false ∧ ScriptLine.wf (.wr .n (2 ^ 64)) = false ∧ ScriptLine.wf (.cmdw (2 ^ 64)) = false ∧
      ScriptLine.wf (.wr (.bound 11) 0) = false ∧ ScriptLine.wf (.rd (.wit 12 0)) = false := by decide
theorem test_wf_pseudo_commands :
    ScriptLine.wf (.mulmodOf 1 (2 ^ 64) 1) = false ∧ ScriptLine.wf (.modexpOf 1 1 (2 ^ 64)) = false ∧
      ScriptLine.wf (.wtestOf 1 1 (2 ^ 64) 1) = false ∧ ScriptLine.wf (.decompOf (2 ^ 64)) = false ∧
      ScriptLine.wf (.wselOf (2 ^ 64)) = false ∧ ScriptLine.wf (.isprimeOf (2 ^ 64)) = false := by decide

/-! ## Each command, one step -/

/-- 95_test_vectors.md V-MM row 11: a multiplier that keeps 64 bits of the product gives 1. -/
theorem test_mulmod_wide_product :
    after (tick { running 1 .mmRun 0xFFFFFFFFFFFFFFC5 with a := 0xFFFFFFFFFFFFFFFF, d := 0xFFFFFFFFFFFFFFFF })
      (fun t => (t.r, t.done, t.st)) = some (3364, true, .idle) := by decide
/-- 96_test_vectors_host.md V-FT row 4. -/
theorem test_mulmod_zero_modulus :
    after (exec .mulmod (idleWith 0 3 4 0)) (fun t => (t.err, t.st, t.op, t.statusWord)) =
      some (2, .fault, 0, 0x20) := by decide
/-- 95_test_vectors.md P1 step 8. -/
theorem test_modexp_fold :
    after (tick { running 2 .meMul 497 with r := 4, base := 256, exp := 3 }) (fun t => (t.r, t.base, t.st)) =
      some (30, 256, .meSqr) := by decide
/-- 41_modexp.md R111 and V-ME row 3: with modulus 1 the running result starts at 0. -/
theorem test_modexp_initial_result :
    after (tick { running 2 .meInit 1 with a := 5, d := 0 }) (fun t => (t.r, t.base, t.exp)) = some (0, 5, 0) := by decide
/-- 95_test_vectors.md V-WT row 4 (561): the last check, `X = 67`, `Y = 1`, exits early. -/
theorem test_wtest_early_exit :
    after (tick { running 3 .wtChk 561 with x := 67, y := 1, cnt := 2 }) (fun t => (t.v, t.x, t.cnt, t.done)) =
      some (false, 67, 2, true) := by decide
/-- 96_test_vectors_host.md V-FT row 8: with `N = 0` and `S = 0` the zero modulus is reported. -/
theorem test_wtest_fault_order :
    after (exec .wtest (idleWith 0 2 3 0)) (fun t => t.err) = some 2 := by decide
/-- 95_test_vectors.md P2 step 2. -/
theorem test_decomp_start :
    after (tick (running 6 .svDec0 5)) (fun t => (t.s, t.d, t.st)) = some (1, 2, .svDec) := by decide
/-- 95_test_vectors.md V-DC row 18. -/
theorem test_decomp_domain :
    after (exec .decomp (idleWith 2 0 99 77)) (fun t => (t.err, t.s, t.d)) = some (4, 77, 99) := by decide
/-- 43_sieve.md R157: `N = 2047` is not below the bound 2047 of row 0. -/
theorem test_wsel_strict :
    after (tick (running 5 .svScan 2047)) (fun t => (t.row, t.st)) = some (1, .svScan) := by decide
/-- 44_wrom.md R184: row 11 is selected without a comparison, also for `N = 2^64 − 1`. -/
theorem test_wsel_last_row :
    after (tick { running 5 .svScan 0xFFFFFFFFFFFFFFFF with row := 11 }) (fun t => (t.row, t.done)) =
      some (11, true) := by decide
/-- 95_test_vectors.md V-IP row 7: 9 is decided by quick elimination. -/
theorem test_isprime_quick :
    after (tick (running 6 .svQuick 9)) (fun t => (t.v, t.done, t.st)) = some (false, true, .idle) := by decide
/-- 95_test_vectors.md P2 step 7: the first witness of row 0 goes to `A`. -/
theorem test_isprime_witness :
    after (tick { running 6 .svWit 5 with s := 2, d := 1 }) (fun t => (t.a, t.st)) = some (2, .meInit) := by decide

/-! ## The functions -/

/-- 95_test_vectors.md V-ME row 1, V-MM row 15. -/
theorem test_functions :
    modexp 4 13 497 = some 445 ∧
      mulmod 0xDEADBEEFCAFEBABE 0x0123456789ABCDEF 0xFFFFFFFF00000001 = some 0x6D692A11FA948166 := by decide
/-- 42_witness.md R140: operands outside the contract are computed as written. -/
theorem test_wtest_outside_contract :
    wtest 7 1 3 9 = some true ∧ wtest 1 1 0 2 = some false ∧ wtest 2 1 0 3 = some true := by decide
/-- 95_test_vectors.md V-IP row 36 (the driver literal): rejected by the twelfth witness only. -/
theorem test_isprime_driver_literal : isprime 3825123056546413051 = false := by decide +kernel

/-! ## The host port and the parameters -/

/-- 96_test_vectors_host.md V-HI: ROM windows and reserved words. -/
theorem test_rom_windows :
    [0x040, 0x04A, 0x04B, 0x056, 0x101, 0x163, 0x166, 0x167, 0x1BB, 0x1BC, 0x1FF].map State.reset.hostWord =
      [some 2047, some 3825123056546413051, some 0, some 7, some 0, some 16, some 3, some 0, some 37, some 0,
        some 0] := by decide
/-- 95_test_vectors.md P5 events 4 and 6: a write while busy is dropped with `OVR`; a read then is one draw. -/
theorem test_busy_access :
    after (hostWrite 0x002 5 (running 6 .svSel0 2047)) (fun t => (t.n, t.ovr, t.st)) = some (2047, true, .svSel0) ∧
      (hostRead 0x002 (running 6 .svSel0 2047)).draws = 1 := by decide
/-- 00_scope.md R7: `NROWS`, `MAXW`, `NWIT`, `W`. -/
theorem test_parameters :
    romTable.length = Config.numRows ∧ (romTable.map fun r => r.2.length).max? = some Config.maxWitnesses ∧
      (romTable.map fun r => r.2.length).sum = Config.numWitnesses ∧ Config.dataWidth = 64 ∧
      Config.productWidth = 2 * Config.dataWidth := by decide
/-- 30_encoding.md R89: the bus transactions of `MODEXP 4, 13, 497` (95_test_vectors.md P1). -/
theorem test_script_expansion :
    scriptEvents [.modexpOf 4 13 497, .rd .base] =
      some [.write 0x003 4, .write 0x004 13, .write 0x002 497, .write 0x000 2, .wait, .read 0x009] := by decide

/-! ## Witnesses: states that meet the hypotheses of the statements -/

/-- A sound state of `ISPRIME 5` about to load its witness (95_test_vectors.md P2, after step 6). -/
def sieving : State := { running 6 .svWit 5 with s := 2, d := 1 }

theorem sieving_sound : sieving.Inv := by constructor <;> decide

theorem witness_DecodeInvertsEncodeBothWays : Instr.wf .isprime = true ∧ decode 6 = some .isprime := by decide

theorem witness_IllegalWordsFaultAndSixAreLegal :
    State.reset.st = .idle ∧ decode 0 = none ∧ decode 7 = none ∧ decode 8 = none := by decide

theorem witness_StepRunsTheDecodedCommand : ∃ (s : State) (w : Word) (rest : List Event) (i : Instr),
    s.pending = .write 0x000 w :: rest ∧ decode w = some i :=
  ⟨{ State.reset with pending := [.write 0x000 6, .wait] }, 6, [.wait], .isprime, rfl, by decide⟩

theorem witness_AcceptanceChecksInOrder :
    (running 6 .svQuick 5).st ≠ .idle ∧ (idleWith 0 0 0 0).st = .idle ∧
      (BitVec.extractLsb 2 0 (7 : Word)) = 7 ∧ (BitVec.extractLsb 63 3 (8 : Word)) ≠ 0 ∧
      (BitVec.extractLsb 2 0 (3 : Word)) = 3 ∧ (idleWith 1 0 0 0).s = 0 ∧ (idleWith 2 0 0 0).n.toNat < 3 := by decide

theorem witness_PreconditionFaultsOfEachCommand :
    (idleWith 0 0 0 0).st = .idle ∧ (idleWith 0 0 0 0).n = 0 ∧
      (idleWith 1 0 0 0).n ≠ 0 ∧ (idleWith 1 0 0 0).s = 0 ∧
      (idleWith 2 0 0 0).n.toNat < 3 ∧ (idleWith 4 0 0 0).n.toNat % 2 = 0 := by decide

theorem witness_FaultEntryAndItsStatusWord :
    1 ≤ illegalCmd.toNat ∧ decompDomain.toNat ≤ 4 ∧ State.reset.v = false ∧ State.reset.ovr = false := by decide

theorem witness_FaultStateIsTerminal : ∃ s t : State,
    s.st = .fault ∧ step s = .next t ∧ s.pending.head? ≠ some .reset :=
  ⟨{ State.reset.raiseFault 3 with pending := [.write 0x005 1] }, _, rfl, rfl, by decide⟩

theorem witness_MulmodIsTheExactWideRemainder : ((1 : Word) ≠ 0) ∧ ((0xFFFFFFFFFFFFFFFF : Word) ≠ 0) := by decide

theorem witness_MulmodLaws : ((2 : Word) ≠ 0) ∧ ((0xFFFFFFFFFFFFFFC5 : Word) ≠ 0) := by decide

theorem witness_MulmodCommandCompletes :
    (idleWith 0 3 4 0).st = .idle ∧ (idleWith 0 3 4 0).n = 0 ∧ (idleWith 1 3 4 0).n ≠ 0 := by decide

theorem witness_ModexpIsThePower : ((1 : Word) ≠ 0) ∧ ((497 : Word) ≠ 0) := by decide

theorem witness_EngineTicks :
    (running 2 .meInit 1).st = .meInit ∧ (running 2 .meTest 1).st = .meTest ∧ (running 6 .meMul 1).st = .meMul ∧
      (running 3 .meSqr 1).st = .meSqr ∧ (running 2 .meInit 1).n ≠ 0 := by decide

theorem witness_EngineRunEndState : (running 2 .meInit 1).st = .meInit ∧ (running 2 .meInit 1).n ≠ 0 := by decide

theorem witness_ModexpCommandCompletes :
    (idleWith 0 4 13 0).n = 0 ∧ (idleWith 497 4 13 0).st = .idle ∧ (idleWith 497 4 13 0).n ≠ 0 := by decide

theorem witness_WtestMeansNoNontrivialRootAndLastSquareOne : ((1 : Word) ≠ 0) ∧ ((221 : Word) ≠ 0) := by decide

theorem witness_WitnessTicks :
    (running 3 .wtLoad 1).st = .wtLoad ∧ (running 3 .wtSqr 1).st = .wtSqr ∧ (running 6 .wtFin 1).st = .wtFin ∧
      (running 6 .wtChk 1).st = .wtChk ∧ (running 3 .wtSqr 1).n ≠ 0 ∧
      { running 6 .wtChk 1 with cnt := 1 }.cnt ≠ 0 := by decide

/-- 95_test_vectors.md V-WT row 13 (early exit at the first squaring) and row 20 (run to its end with `n = 1`). -/
theorem witness_WitnessTestEndState :
    ({ running 3 .wtLoad 15 with r := 4, s := 1 }.n ≠ 0 ∧ { running 3 .wtLoad 15 with r := 4, s := 1 }.s ≠ 0 ∧
        Claims.earlyAt 15 4 0) ∧
      (∀ i, i < (1 : Word).toNat → ¬ Claims.earlyAt 1 0 i) := by
  unfold Claims.earlyAt
  decide

theorem witness_WtestCommandCompletes :
    (idleWith 0 2 3 0).n = 0 ∧ (idleWith 7 2 3 0).s = 0 ∧ (idleWith 221 174 55 2).st = .idle ∧
      (idleWith 221 174 55 2).n ≠ 0 ∧ (idleWith 221 174 55 2).s ≠ 0 := by decide

theorem witness_DecompSplitsNMinusOne :
    (3 ≤ (3 : Word).toNat ∧ (3 : Word).toNat % 2 = 1) ∧ ((2 : Word).toNat < 3) ∧ ((4 : Word).toNat % 2 = 0) := by decide

theorem witness_DecompCommandCompletes :
    (idleWith 3 0 0 0).st = .idle ∧ 3 ≤ (idleWith 3 0 0 0).n.toNat ∧ (idleWith 3 0 0 0).n.toNat % 2 = 1 ∧
      (idleWith 2 0 0 0).n.toNat < 3 ∧ (idleWith 4 0 0 0).n.toNat % 2 = 0 := by decide

theorem witness_RomContent : romWit 6 5 = some 80 ∧ romWit 11 11 = some 37 ∧ romWit 0 1 = none := by decide

theorem witness_WselIsTheFirstSatisfiedBound : 0 < wsel 2047 ∧ 10 < wsel 0xFFFFFFFFFFFFFFFF := by decide

theorem witness_WselCommandCompletes : (idleWith 0 0 0 0).st = .idle := by decide

theorem witness_QuickEliminationAndItsSurvivors :
    (1 : Word).toNat < 2 ∧ ((4 : Word).toNat % 2 = 0 ∧ (4 : Word).toNat ≠ 2) ∧
      ((9 : Word).toNat % 3 = 0 ∧ (9 : Word).toNat ≠ 3) ∧ (3 : Word).toNat = 3 ∧ quickVerdict 5 = none := by decide

theorem witness_SieveTicks :
    (running 6 .svQuick 5).st = .svQuick ∧ ((running 4 .svDec0 3).st = .svDec0 ∧ (running 4 .svDec0 3).n ≠ 0) ∧
      ((running 4 .svDec 3).st = .svDec ∧ (running 4 .svDec 3).s.toNat < 2 ^ 64 - 1) ∧
      (running 5 .svSel0 0).st = .svSel0 ∧
      ((running 5 .svScan 0).st = .svScan ∧ { running 5 .svScan 0 with row := 11 }.row.toNat ≤ 11) ∧
      (sieving.st = .svWit ∧ romWit sieving.row.toNat sieving.wi.toNat = some 2) ∧
      ((running 6 .svNext 5).st = .svNext ∧ romCount (running 6 .svNext 5).row.toNat = some 1 ∧
        (running 6 .svNext 5).wi.toNat < 1) := by decide

theorem witness_IsprimeQuickCompletes :
    (idleWith 0 0 0 0).st = .idle ∧ quickVerdict (idleWith 0 0 0 0).n = some false ∧
      quickVerdict (idleWith 3 0 0 0).n = some true := by decide

theorem witness_IsprimeCommandCompletes : (idleWith 2053 0 0 0).st = .idle := by decide

theorem witness_IsprimeLeavesItsLastWitness :
    (idleWith 5 0 0 0).st = .idle ∧ quickVerdict (idleWith 5 0 0 0).n = none := by decide

theorem witness_EveryPrimeIsAccepted : (2 : Word).toNat.Prime ∧ (5 : Word).toNat.Prime := by decide

theorem witness_SieveStartsWitnessTestsInContract : sieving.Inv ∧ sieving.st = .svWit := ⟨sieving_sound, rfl⟩

theorem witness_TickFollowsTheSuccessorRelation : ∃ t, tick sieving = .next t := ⟨_, rfl⟩

theorem witness_TickWritesOnlyTheNamedRegisters :
    (∃ t, tick sieving = .next t) ∧ sieving.busy = true ∧
      (∃ t, tick State.reset = .next t) ∧ State.reset.busy = false := ⟨⟨_, rfl⟩, rfl, ⟨_, rfl⟩, rfl⟩

theorem witness_CompletedResultsAreStable :
    State.reset.st = .idle ∧ State.reset.dataWord 0x002 = some 0 ∧ State.reset.dataWord 0x00D = some 0 := by decide

theorem witness_RunningCommandsEnd : sieving.Inv ∧ sieving.busy = true := ⟨sieving_sound, rfl⟩

/-- Two idle states that agree on every operand and differ in a register no operand names. -/
theorem witness_ResultsDependOnOperandsAlone : ∀ i : Instr, ∃ s1 s2 u1 : State,
    s1.st = .idle ∧ s2.st = .idle ∧ Claims.sameOperands i s1 s2 ∧ s1.r ≠ s2.r ∧
      exec i s1 = .next u1 ∧ u1.st ≠ .fault := by
  intro i
  refine ⟨idleWith 221 174 55 2, { idleWith 221 174 55 2 with r := 9 }, ?_⟩
  cases i <;> exact ⟨_, rfl, rfl, by simp [Claims.sameOperands], by decide, rfl, by decide⟩

theorem witness_ReadsValidAtAnyTime :
    (romBound 0 = some 2047 ∧ romBound 10 = some 3825123056546413051) ∧
      (romCount 0 = some 1 ∧ romCount 11 = some 12) ∧
      (romWit 11 11 = some 37 ∧ romWit 0 15 = none) ∧
      (0x00E ≤ (0x03F : WordIndex).toNat ∧ 0x04B ≤ (0x04B : WordIndex).toNat ∧ 0x05C ≤ (0x0FF : WordIndex).toNat ∧
        0x1C0 ≤ (0x1FF : WordIndex).toNat) ∧ State.reset.st = .idle := by decide

theorem witness_DataRegisterReads :
    State.reset.busy = false ∧ sieving.busy = true ∧
      ([sieving.n, sieving.a][1]? = some sieving.a) ∧
      0x002 ≤ (0x002 : WordIndex).toNat ∧ (0x00D : WordIndex).toNat ≤ 0x00D := by decide

theorem witness_HostWriteCases :
    (State.reset.raiseFault 1).st = .fault ∧ sieving.busy = true ∧ State.reset.st = .idle ∧
      0x006 ≤ (0x006 : WordIndex).toNat ∧ 0x006 ≤ (0x1FF : WordIndex).toNat := by decide

theorem witness_OperandWritesReadBack :
    State.reset.st = .idle ∧ 0x002 ≤ (0x002 : WordIndex).toNat ∧ (0x005 : WordIndex).toNat ≤ 0x005 ∧
      (0x006 : WordIndex) ≠ 0x005 := by decide

theorem witness_ResetClearsTheBlock :
    { sieving with pending := [.reset, .tick] }.pending = .reset :: [.tick] := rfl

theorem witness_WaitPollsStatus :
    ({ State.reset with pending := [.wait] }.pending = .wait :: [] ∧ { State.reset with pending := [.wait] }.busy = false) ∧
      ({ sieving with pending := [.wait] }.pending = .wait :: [] ∧ { sieving with pending := [.wait] }.busy = true) :=
  ⟨⟨rfl, rfl⟩, rfl, rfl⟩

theorem witness_StepKeepsStatesSound : sieving.Inv ∧ ∃ t, step sieving = .next t := ⟨sieving_sound, _, rfl⟩

theorem witness_SoundStatesNeverStop : sieving.Inv := sieving_sound

theorem witness_ReachableStatesKeepTheInvariants : ∃ (events : List Event) (k : Nat) (t : State),
    Sys2Proof.core.run k { State.reset with pending := events } = .next t ∧ t.st = .meInit ∧ t.op = 6 :=
  ⟨[.write 0x002 5, .write 0x000 6], 9, _, rfl, rfl, rfl⟩

theorem witness_ModexpScriptComputesThePower :
    State.reset.st = .idle ∧ (4 : Nat) < 2 ^ 64 ∧ (13 : Nat) < 2 ^ 64 ∧ 1 ≤ 497 ∧ (497 : Nat) < 2 ^ 64 ∧
      (scriptEvents [.modexpOf 4 13 497]).isSome = true := by decide

theorem witness_IsprimeScriptReadsTheVerdict :
    State.reset.st = .idle ∧ (2053 : Nat) < 2 ^ 64 ∧
      (scriptEvents [.isprimeOf 2053, .rd .status]).isSome = true := by decide

end Sys2Proof.Tests
end

section
/-! SUPPORT. A sound state's step answers a next state: a condition under which each controller state's `Tick` does, then
that `State.Inv` gives every one of these conditions. -/

namespace Sys2Proof.Machine

/-! ## When a value exists -/

theorem successor_of_lt {w : Nat} {v : BitVec w} (h : v.toNat + 1 < 2 ^ w) : successor v = some (v + 1) := if_pos h

/-- `RomBound(r)` has a value for `r` in 0..10 (44_wrom.md R181). -/
theorem exists_romBound_of_lt {r : Nat} (h : r < 11) : ∃ bound, romBound r = some bound := by
  interval_cases r <;> exact ⟨_, rfl⟩

/-- `RomCount(r)` has a value for `r` in 0..11 (44_wrom.md R183). -/
theorem romCount_of_lt {r : Nat} (h : r < 12) : romCount r = some (romWitnesses r).length := by
  interval_cases r <;> rfl

theorem ne_zero_of_decompInDomain {n : Word} (h : decompInDomain n = true) : n ≠ 0 := by
  rintro rfl
  exact absurd h (by decide)

/-! ## When a `Tick` of each controller state answers -/

section
variable {s : State}

theorem tickMmRun_answers (hn : s.n ≠ 0) : ∃ t, tickMmRun s = .next t :=
  ⟨_, by rw [tickMmRun, mulmod_of_ne_zero _ _ hn, orStop_some]⟩

theorem tickMeInit_answers (hn : s.n ≠ 0) : ∃ t, tickMeInit s = .next t :=
  ⟨_, by rw [tickMeInit, oneMod_of_ne_zero hn, orStop_some]⟩

theorem tickMeMul_answers (hn : s.n ≠ 0) : ∃ t, tickMeMul s = .next t :=
  ⟨_, by rw [tickMeMul, mulmod_of_ne_zero _ _ hn, orStop_some]⟩

theorem tickMeSqr_answers (hn : s.n ≠ 0) : ∃ t, tickMeSqr s = .next t :=
  ⟨_, by rw [tickMeSqr, mulmod_of_ne_zero _ _ hn, orStop_some]⟩

theorem tickWtSqr_answers (hn : s.n ≠ 0) : ∃ t, tickWtSqr s = .next t :=
  ⟨_, by rw [tickWtSqr, mulmod_of_ne_zero _ _ hn, orStop_some]⟩

theorem tickWtChk_answers (hn : s.n ≠ 0) (hcnt : s.cnt ≠ 0) : ∃ t, tickWtChk s = .next t := by
  rw [tickWtChk, predecessor_of_ne_zero hn, orStop_some]
  split
  · exact ⟨_, rfl⟩
  · exact ⟨_, by rw [predecessor_of_ne_zero hcnt, orStop_some]⟩

theorem tickSvDec0_answers (hn : s.n ≠ 0) : ∃ t, tickSvDec0 s = .next t :=
  ⟨_, by rw [tickSvDec0, predecessor_of_ne_zero hn, orStop_some]⟩

theorem tickSvDec_answers (hs : s.s.toNat ≤ 63) : ∃ t, tickSvDec s = .next t := by
  rw [tickSvDec]
  split
  · exact ⟨_, rfl⟩
  · exact ⟨_, by rw [successor_of_lt (by omega), orStop_some]⟩

/-- Row 11 is selected without a comparison, so a row that is compared has a bound and a row after it. -/
theorem tickSvScan_answers (hrow : s.row.toNat ≤ 11) : ∃ t, tickSvScan s = .next t := by
  rw [tickSvScan]
  split
  · exact ⟨_, rfl⟩
  · next hne =>
    have hlt : s.row.toNat < 11 := Nat.lt_of_le_of_ne hrow fun h => hne (BitVec.eq_of_toNat_eq h)
    obtain ⟨bound, hbound⟩ := exists_romBound_of_lt hlt
    rw [hbound, orStop_some]
    split
    · exact ⟨_, rfl⟩
    · exact ⟨_, by rw [successor_of_lt (by omega), orStop_some]⟩

theorem tickSvWit_answers (hwit : (romWit s.row.toNat s.wi.toNat).isSome = true) : ∃ t, tickSvWit s = .next t := by
  obtain ⟨a, ha⟩ := Option.isSome_iff_exists.1 hwit
  exact ⟨_, by rw [tickSvWit, ha, orStop_some]⟩

theorem tickSvNext_answers (hrow : s.row.toNat ≤ 11) (hwi : s.wi.toNat ≤ 11) : ∃ t, tickSvNext s = .next t := by
  rw [tickSvNext]
  split
  · exact ⟨_, rfl⟩
  · rw [romCount_of_lt (by omega), orStop_some]
    split
    · exact ⟨_, rfl⟩
    · exact ⟨_, by rw [successor_of_lt (by omega), orStop_some]⟩

/-! ## What a sound state gives -/

/-- Soundness speaks of the block only, not of the events still to come. -/
theorem State.Inv.withPending (h : s.Inv) (events : List Event) : State.Inv { s with pending := events } :=
  ⟨h.errOk, h.doneOk, h.rowOk, h.opOk, h.modulusOk, h.countOk, h.decompOk, h.scanOk, h.sieveOk⟩

/-- The witness index names a slot of its row at `SV_WIT` (43_sieve.md R164), where only `ISPRIME` can be. -/
theorem State.Inv.romWit_isSome_of_svWit (h : s.Inv) (hst : s.st = .svWit) :
    (romWit s.row.toNat s.wi.toNat).isSome = true := by
  obtain ⟨hopcodes, -⟩ := h.opOk
  have hop : s.op = 6 := by simpa [hst, Ctl.opcodes] using hopcodes
  have hpast : s.pastSelection = true := by
    simp [State.pastSelection, State.pastDecomp, State.pastQuick, State.busy, hst, hop]
  obtain ⟨-, -, hselected, -⟩ := h.sieveOk
  obtain ⟨-, hwit⟩ := hselected hpast
  exact hwit

/-- No `Tick` of a sound state stops: the invariant of each controller state is what its transition needs. -/
theorem State.Inv.tick_answers (h : s.Inv) : ∃ t, tick s = .next t := by
  have hmodulus := h.modulusOk
  obtain ⟨hcnt, -⟩ := h.countOk
  obtain ⟨hdomain, hsplits⟩ := h.decompOk
  obtain ⟨hrow, hwi⟩ := h.rowOk
  unfold tick
  cases hst : s.st
  case idle | fault | meTest | wtLoad | wtFin | svQuick | svSel0 => exact ⟨_, rfl⟩
  case mmRun => exact tickMmRun_answers (hmodulus (.inl hst))
  case meInit => exact tickMeInit_answers (hmodulus (.inr (.inl (hst ▸ rfl))))
  case meMul => exact tickMeMul_answers (hmodulus (.inr (.inl (hst ▸ rfl))))
  case meSqr => exact tickMeSqr_answers (hmodulus (.inr (.inl (hst ▸ rfl))))
  case wtSqr => exact tickWtSqr_answers (hmodulus (.inr (.inr (hst ▸ rfl))))
  case wtChk => exact tickWtChk_answers (hmodulus (.inr (.inr (hst ▸ rfl)))) (hcnt (.inr hst))
  case svDec0 => exact tickSvDec0_answers (ne_zero_of_decompInDomain (hdomain (.inl hst)))
  case svDec =>
    obtain ⟨-, hs, -⟩ := hsplits hst
    exact tickSvDec_answers hs
  case svScan => exact tickSvScan_answers hrow
  case svWit => exact tickSvWit_answers (h.romWit_isSome_of_svWit hst)
  case svNext => exact tickSvNext_answers hrow hwi

/-- A host transaction answers in every state; only the `Tick`s between them need soundness. -/
theorem State.Inv.runEvent_answers (h : s.Inv) (e : Event) : ∃ t, runEvent e s = .next t := by
  cases e with
  | read addr => exact ⟨_, rfl⟩
  | write addr v => exact ⟨_, hostWrite_eq addr v s⟩
  | reset => exact ⟨_, rfl⟩
  | tick => exact h.tick_answers
  | wait =>
    rw [runEvent]
    split
    · exact (h.withPending _).tick_answers
    · exact ⟨_, rfl⟩

theorem State.Inv.step_answers (h : s.Inv) : ∃ t, step s = .next t := by
  rw [step, stepEvent]
  split
  · exact h.tick_answers
  · exact (h.withPending _).runEvent_answers _

end

/-- Settles O47: each controller state's part of the invariant is what its `Tick` needs, and host transactions always
answer. -/
theorem soundStatesNeverStop : Obligations.SoundStatesNeverStop := fun _ h => h.step_answers

end Sys2Proof.Machine
end

section
/-! SUPPORT. The fields of the `STATUS` word (10_state.md R38). -/

namespace Sys2Proof.Machine

theorem busy_iff (s : State) : s.busy = true ↔ s.st ≠ .idle ∧ s.st ≠ .fault := by
  rw [← Bool.not_eq_false, busy_eq_false_iff, not_or]

/-- The layout of `STATUS` (10_state.md R38): which flag or field each bit belongs to, from bit 0 up. -/
theorem statusWord_getLsbD (s : State) (i : Nat) : s.statusWord.getLsbD i =
    if i < 1 then s.busy else if i - 1 < 1 then s.done else if i - 2 < 1 then s.v else if i - 3 < 1 then s.ovr
    else if i - 4 < 4 then s.err.getLsbD (i - 4) else if i - 8 < 8 then false
    else if i - 16 < 3 then s.op.getLsbD (i - 16) else false := by
  have hbits : s.statusWord.getLsbD i = (0#45 ++ s.op ++ 0#8 ++ s.err ++ BitVec.ofBool s.ovr ++ BitVec.ofBool s.v
    ++ BitVec.ofBool s.done ++ BitVec.ofBool s.busy).getLsbD i := rfl
  have hflag (b : Bool) (j : Nat) (r : Bool) :
      (if j < 1 then (BitVec.ofBool b).getLsbD j else r) = if j < 1 then b else r :=
    ite_congr rfl (fun h => by simp [Nat.lt_one_iff.1 h]) fun _ => rfl
  rw [hbits]
  simp only [BitVec.getLsbD_append, hflag, BitVec.getLsbD_zero]
  simp only [Nat.sub_sub, Nat.reduceAdd]

/-- Settles O38: each clause reads its bits off the layout of the word. -/
theorem statusWordFields : Obligations.StatusWordFields := by
  intro s
  refine ⟨?_, statusWord_getLsbD s 1, statusWord_getLsbD s 2, statusWord_getLsbD s 3, ?_, ?_, ?_, ?_⟩
  · rw [statusWord_getLsbD]; exact busy_iff s
  all_goals
    refine BitVec.eq_of_getLsbD_eq fun i hi => ?_
    rw [BitVec.getLsbD_extractLsb, statusWord_getLsbD]
    simp +arith [hi]

end Sys2Proof.Machine
end

section
/-! SUPPORT. The controller as a relation: every transition with its guard, said once. -/

namespace Sys2Proof.Machine

/-- `SV_SCAN` selects this row: the last one, or one whose bound `n` is below (43_sieve.md R163). -/
def rowSelects (n : Word) (row : Nibble) : Prop :=
  row = 11 ∨ ∃ bound, romBound row.toNat = some bound ∧ n.toNat < bound.toNat

/-- Every transition of the controller, with its guard (40_mulmod.md R105; 41_modexp.md R116 to R119; 42_witness.md R134
to R138; 43_sieve.md R159 to R166), as a relation: `tick_eq_next_iff` says that it is `tick`. -/
inductive Transition (s : State) : State → Prop
  | idle (hst : s.st = .idle) : Transition s s
  | fault (hst : s.st = .fault) : Transition s s
  | mmRun (hst : s.st = .mmRun) (hn : s.n ≠ 0) :
      Transition s { s with r := mulRem s.a s.d s.n, done := true, st := .idle }
  | meInit (hst : s.st = .meInit) (hn : s.n ≠ 0) :
      Transition s { s with r := oneRem s.n, base := s.a, exp := s.d, st := .meTest }
  | meTestFinish (hst : s.st = .meTest) (hexp : s.exp = 0) (hop : s.op = 2) :
      Transition s { s with done := true, st := .idle }
  | meTestLoad (hst : s.st = .meTest) (hexp : s.exp = 0) (hop : s.op ≠ 2) :
      Transition s { s with st := .wtLoad }
  | meTestOdd (hst : s.st = .meTest) (hexp : s.exp ≠ 0) (hodd : isOdd s.exp = true) :
      Transition s { s with st := .meMul }
  | meTestEven (hst : s.st = .meTest) (hexp : s.exp ≠ 0) (heven : isOdd s.exp = false) :
      Transition s { s with st := .meSqr }
  | meMul (hst : s.st = .meMul) (hn : s.n ≠ 0) :
      Transition s { s with r := mulRem s.r s.base s.n, st := .meSqr }
  | meSqr (hst : s.st = .meSqr) (hn : s.n ≠ 0) :
      Transition s { s with base := mulRem s.base s.base s.n, exp := half s.exp, st := .meTest }
  | wtLoad (hst : s.st = .wtLoad) : Transition s { s with x := s.r, cnt := s.s, st := .wtSqr }
  | wtSqr (hst : s.st = .wtSqr) (hn : s.n ≠ 0) :
      Transition s { s with y := mulRem s.x s.x s.n, st := .wtChk }
  | wtChkFinish (hst : s.st = .wtChk) (hn : s.n ≠ 0) (hroot : nontrivialRoot s.n s.x s.y = true) (hop : s.op = 3) :
      Transition s { s with v := false, done := true, st := .idle }
  | wtChkReturn (hst : s.st = .wtChk) (hn : s.n ≠ 0) (hroot : nontrivialRoot s.n s.x s.y = true) (hop : s.op ≠ 3) :
      Transition s { s with v := false, st := .svNext }
  | wtChkLast (hst : s.st = .wtChk) (hn : s.n ≠ 0) (hroot : nontrivialRoot s.n s.x s.y = false) (hcnt : s.cnt ≠ 0)
      (hlast : s.cnt - 1 = 0) : Transition s { s with x := s.y, cnt := s.cnt - 1, st := .wtFin }
  | wtChkMore (hst : s.st = .wtChk) (hn : s.n ≠ 0) (hroot : nontrivialRoot s.n s.x s.y = false) (hcnt : s.cnt ≠ 0)
      (hmore : s.cnt - 1 ≠ 0) : Transition s { s with x := s.y, cnt := s.cnt - 1, st := .wtSqr }
  | wtFinFinish (hst : s.st = .wtFin) (hop : s.op = 3) :
      Transition s { s with v := decide (s.y = 1), done := true, st := .idle }
  | wtFinReturn (hst : s.st = .wtFin) (hop : s.op ≠ 3) :
      Transition s { s with v := decide (s.y = 1), st := .svNext }
  | svQuickDecided (hst : s.st = .svQuick) (verdict : Bool) (hquick : quickVerdict s.n = some verdict) :
      Transition s { s with v := verdict, done := true, st := .idle }
  | svQuickSurvived (hst : s.st = .svQuick) (hquick : quickVerdict s.n = none) : Transition s { s with st := .svDec0 }
  | svDec0 (hst : s.st = .svDec0) (hn : s.n ≠ 0) :
      Transition s { s with d := half (s.n - 1), s := 1, st := .svDec }
  | svDecFinish (hst : s.st = .svDec) (hodd : isOdd s.d = true) (hop : s.op = 4) :
      Transition s { s with done := true, st := .idle }
  | svDecSelect (hst : s.st = .svDec) (hodd : isOdd s.d = true) (hop : s.op ≠ 4) :
      Transition s { s with st := .svSel0 }
  | svDecHalve (hst : s.st = .svDec) (heven : isOdd s.d = false) (hs : s.s.toNat + 1 < 2 ^ 64) :
      Transition s { s with d := half s.d, s := s.s + 1 }
  | svSel0 (hst : s.st = .svSel0) : Transition s { s with row := 0, wi := 0, st := .svScan }
  | svScanFinish (hst : s.st = .svScan) (hrow : rowSelects s.n s.row) (hop : s.op = 5) :
      Transition s { s with done := true, st := .idle }
  | svScanWit (hst : s.st = .svScan) (hrow : rowSelects s.n s.row) (hop : s.op ≠ 5) :
      Transition s { s with st := .svWit }
  | svScanMore (hst : s.st = .svScan) (hrow : s.row ≠ 11) (bound : Word)
      (hbound : romBound s.row.toNat = some bound) (hle : bound.toNat ≤ s.n.toNat) :
      Transition s { s with row := s.row + 1 }
  | svWit (hst : s.st = .svWit) (witness : Word) (hwit : romWit s.row.toNat s.wi.toNat = some witness) :
      Transition s { s with a := witness, st := .meInit }
  | svNextFailed (hst : s.st = .svNext) (hv : s.v = false) : Transition s { s with done := true, st := .idle }
  | svNextLast (hst : s.st = .svNext) (hv : s.v = true) (hcount : romCount s.row.toNat = some (s.wi.toNat + 1)) :
      Transition s { s with done := true, st := .idle }
  | svNextMore (hst : s.st = .svNext) (hv : s.v = true) (count : Nat) (hcount : romCount s.row.toNat = some count)
      (hmore : s.wi.toNat + 1 ≠ count) (hwi : s.wi.toNat + 1 < 2 ^ 4) :
      Transition s { s with wi := s.wi + 1, st := .svWit }

section
variable {s t : State}

theorem Transition.of_wtExit (verdict : Bool)
    (hfinish : s.op = 3 → Transition s { s with v := verdict, done := true, st := .idle })
    (hreturn : s.op ≠ 3 → Transition s { s with v := verdict, st := .svNext }) : Transition s (s.wtExit verdict) := by
  obtain ⟨hop, heq⟩ | ⟨hop, heq⟩ := wtExit_cases s verdict
  · exact heq ▸ hfinish hop
  · exact heq ▸ hreturn hop

theorem Transition.of_rowSelected (hst : s.st = .svScan) (hrow : rowSelects s.n s.row) :
    Transition s s.rowSelected := by
  obtain ⟨hop, heq⟩ | ⟨hop, heq⟩ := rowSelected_cases s
  · exact heq ▸ .svScanFinish hst hrow hop
  · exact heq ▸ .svScanWit hst hrow hop

/-- What a `Tick` can do, said once for the whole controller: every invariant is a case analysis of it. -/
theorem Transition.of_tick (h : tick s = .next t) : Transition s t := by
  unfold tick at h
  cases hst : s.st <;> simp only [hst] at h
  case idle => cases h; exact .idle hst
  case fault => cases h; exact .fault hst
  case mmRun => obtain ⟨hn, rfl⟩ := tickMmRun_next h; exact .mmRun hst hn
  case meInit => obtain ⟨hn, rfl⟩ := tickMeInit_next h; exact .meInit hst hn
  case meTest =>
    obtain ⟨h0, hop, rfl⟩ | ⟨h0, hop, rfl⟩ | ⟨h0, hodd, rfl⟩ | ⟨h0, heven, rfl⟩ := tickMeTest_next h
    · exact .meTestFinish hst h0 hop
    · exact .meTestLoad hst h0 hop
    · exact .meTestOdd hst h0 hodd
    · exact .meTestEven hst h0 heven
  case meMul => obtain ⟨hn, rfl⟩ := tickMeMul_next h; exact .meMul hst hn
  case meSqr => obtain ⟨hn, rfl⟩ := tickMeSqr_next h; exact .meSqr hst hn
  case wtLoad => obtain rfl := tickWtLoad_next h; exact .wtLoad hst
  case wtSqr => obtain ⟨hn, rfl⟩ := tickWtSqr_next h; exact .wtSqr hst hn
  case wtChk =>
    obtain ⟨hn, ⟨hroot, rfl⟩ | ⟨hroot, hcnt, rfl⟩⟩ := tickWtChk_next h
    · exact .of_wtExit false (.wtChkFinish hst hn hroot) (.wtChkReturn hst hn hroot)
    · by_cases hlast : s.cnt - 1 = 0
      · rw [if_pos hlast]; exact .wtChkLast hst hn hroot hcnt hlast
      · rw [if_neg hlast]; exact .wtChkMore hst hn hroot hcnt hlast
  case wtFin =>
    obtain rfl := tickWtFin_next h
    exact .of_wtExit _ (.wtFinFinish hst) (.wtFinReturn hst)
  case svQuick =>
    obtain ⟨verdict, hquick, rfl⟩ | ⟨hquick, rfl⟩ := tickSvQuick_next h
    · exact .svQuickDecided hst verdict hquick
    · exact .svQuickSurvived hst hquick
  case svDec0 => obtain ⟨hn, rfl⟩ := tickSvDec0_next h; exact .svDec0 hst hn
  case svDec =>
    obtain ⟨hodd, hop, rfl⟩ | ⟨hodd, hop, rfl⟩ | ⟨heven, hs, rfl⟩ := tickSvDec_next h
    · exact .svDecFinish hst hodd hop
    · exact .svDecSelect hst hodd hop
    · exact .svDecHalve hst heven hs
  case svSel0 => obtain rfl := tickSvSel0_next h; exact .svSel0 hst
  case svScan =>
    obtain ⟨hrow, rfl⟩ | ⟨bound, hrow, hbound, ⟨hlt, rfl⟩ | ⟨hle, rfl⟩⟩ := tickSvScan_next h
    · exact .of_rowSelected hst (.inl hrow)
    · exact .of_rowSelected hst (.inr ⟨bound, hbound, hlt⟩)
    · exact .svScanMore hst hrow bound hbound hle
  case svWit => obtain ⟨witness, hwit, rfl⟩ := tickSvWit_next h; exact .svWit hst witness hwit
  case svNext =>
    obtain ⟨hv, rfl⟩ | ⟨hv, hcount, rfl⟩ | ⟨count, hv, hcount, hmore, hwi, rfl⟩ := tickSvNext_next h
    · exact .svNextFailed hst hv
    · exact .svNextLast hst hv hcount
    · exact .svNextMore hst hv count hcount hmore hwi

/-- A row that has a bound has a row after it. -/
theorem lt_of_romBound_eq_some {r : Nat} {bound : Word} (h : romBound r = some bound) : r < 11 := by
  by_contra hr
  obtain rfl | hr : r = 11 ∨ 12 ≤ r := by omega
  · simp [romBound, romTable] at h
  · simp [romBound, List.getElem?_eq_none (l := romTable) hr] at h

theorem rowSelects.tick_eq (hst : s.st = .svScan) (h : rowSelects s.n s.row) : tick s = .next s.rowSelected := by
  simp only [tick, hst, tickSvScan]
  obtain hrow | ⟨bound, hbound, hlt⟩ := h
  · rw [if_pos hrow]
  · rw [hbound, orStop_some, if_pos hlt, ite_self]

theorem tick_wtChk_of_root (hst : s.st = .wtChk) (hn : s.n ≠ 0) (hroot : nontrivialRoot s.n s.x s.y = true) :
    tick s = .next (s.wtExit false) := by
  simp only [tick, hst, tickWtChk, predecessor_of_ne_zero hn, orStop_some, if_pos (of_decide_eq_true hroot)]

theorem tick_wtChk_of_no_root (hst : s.st = .wtChk) (hn : s.n ≠ 0) (hroot : nontrivialRoot s.n s.x s.y = false)
    (hcnt : s.cnt ≠ 0) : tick s = .next { s with
      x := s.y, cnt := s.cnt - 1, st := if s.cnt - 1 = 0 then .wtFin else .wtSqr } := by
  simp only [tick, hst, tickWtChk, predecessor_of_ne_zero hn, predecessor_of_ne_zero hcnt, orStop_some,
    if_neg (of_decide_eq_false hroot), State.goto]

theorem Transition.tick_eq (h : Transition s t) : tick s = .next t := by
  cases h with
  | idle hst | fault hst => simp only [tick, hst]
  | mmRun hst hn => simp only [tick, hst, tickMmRun, mulmod_of_ne_zero _ _ hn, orStop_some, State.finish]
  | meInit hst hn => simp only [tick, hst, tickMeInit, oneMod_of_ne_zero hn, orStop_some, State.goto]
  | meTestFinish hst hexp hop => simp only [tick, hst, tickMeTest, if_pos hexp, if_pos hop, State.finish]
  | meTestLoad hst hexp hop => simp only [tick, hst, tickMeTest, if_pos hexp, if_neg hop, State.goto]
  | meTestOdd hst hexp hodd => simp only [tick, hst, tickMeTest, if_neg hexp, if_pos hodd, State.goto]
  | meTestEven hst hexp heven =>
    simp only [tick, hst, tickMeTest, if_neg hexp, if_neg (Bool.eq_false_iff.1 heven), State.goto]
  | meMul hst hn => simp only [tick, hst, tickMeMul, mulmod_of_ne_zero _ _ hn, orStop_some, State.goto]
  | meSqr hst hn => simp only [tick, hst, tickMeSqr, mulmod_of_ne_zero _ _ hn, orStop_some, State.goto]
  | wtLoad hst => simp only [tick, hst, tickWtLoad, State.goto]
  | wtSqr hst hn => simp only [tick, hst, tickWtSqr, mulmod_of_ne_zero _ _ hn, orStop_some, State.goto]
  | wtChkFinish hst hn hroot hop => rw [tick_wtChk_of_root hst hn hroot, State.wtExit, if_pos hop, State.finish]
  | wtChkReturn hst hn hroot hop => rw [tick_wtChk_of_root hst hn hroot, State.wtExit, if_neg hop, State.goto]
  | wtChkLast hst hn hroot hcnt hlast => rw [tick_wtChk_of_no_root hst hn hroot hcnt, if_pos hlast]
  | wtChkMore hst hn hroot hcnt hmore => rw [tick_wtChk_of_no_root hst hn hroot hcnt, if_neg hmore]
  | wtFinFinish hst hop => simp only [tick, hst, tickWtFin, State.wtExit, if_pos hop, State.finish]
  | wtFinReturn hst hop => simp only [tick, hst, tickWtFin, State.wtExit, if_neg hop, State.goto]
  | svQuickDecided hst verdict hquick => simp only [tick, hst, tickSvQuick, hquick, State.finish]
  | svQuickSurvived hst hquick => simp only [tick, hst, tickSvQuick, hquick, State.goto]
  | svDec0 hst hn => simp only [tick, hst, tickSvDec0, predecessor_of_ne_zero hn, orStop_some, State.goto]
  | svDecFinish hst hodd hop => simp only [tick, hst, tickSvDec, if_pos hodd, if_pos hop, State.finish]
  | svDecSelect hst hodd hop => simp only [tick, hst, tickSvDec, if_pos hodd, if_neg hop, State.goto]
  | svDecHalve hst heven hs =>
    simp only [tick, hst, tickSvDec, if_neg (Bool.eq_false_iff.1 heven), successor_of_lt hs, orStop_some]
  | svSel0 hst => simp only [tick, hst, tickSvSel0, State.goto]
  | svScanFinish hst hrow hop => rw [hrow.tick_eq hst, State.rowSelected, if_pos hop, State.finish]
  | svScanWit hst hrow hop => rw [hrow.tick_eq hst, State.rowSelected, if_neg hop, State.goto]
  | svScanMore hst hrow bound hbound hle =>
    have hlt := lt_of_romBound_eq_some hbound
    simp only [tick, hst, tickSvScan, if_neg hrow, hbound, orStop_some, if_neg (Nat.not_lt.2 hle),
      successor_of_lt (show s.row.toNat + 1 < 2 ^ 4 by omega)]
  | svWit hst witness hwit => simp only [tick, hst, tickSvWit, hwit, orStop_some, State.goto]
  | svNextFailed hst hv => simp only [tick, hst, tickSvNext, if_pos hv, State.finish]
  | svNextLast hst hv hcount =>
    simp only [tick, hst, tickSvNext, hv, hcount, orStop_some, if_pos, State.finish, reduceCtorEq, if_false]
  | svNextMore hst hv count hcount hmore hwi =>
    simp only [tick, hst, tickSvNext, hv, hcount, orStop_some, if_neg hmore, successor_of_lt hwi, State.goto,
      reduceCtorEq, if_false]

/-- A `Tick` answers `t` exactly when `t` is where one of the transitions leads. -/
theorem tick_eq_next_iff : tick s = .next t ↔ Transition s t := ⟨Transition.of_tick, Transition.tick_eq⟩

end

end Sys2Proof.Machine
end

section
/-! SUPPORT. What no transition changes, and how many `Tick`s a command can take. -/

namespace Sys2Proof.Machine

/-- Settles O34: each transition is a record update that names the registers it writes. -/
theorem tickWritesOnlyTheNamedRegisters : Obligations.TickWritesOnlyTheNamedRegisters := by
  intro s t h
  cases Transition.of_tick h <;> simp [busy_iff, *]

theorem successor_toNat {w : Nat} {v : BitVec w} (h : v.toNat + 1 < 2 ^ w) : (v + 1).toNat = v.toNat + 1 := by
  cases w with
  | zero => omega
  | succ w => rw [BitVec.toNat_add_of_lt] <;> simp [h]

section
variable {s t : State}

/-- More `Tick`s than one witness test with its engine run can take, for any operands (41_modexp.md R120; 42_witness.md
R133). -/
def testBudget : Nat := 2 ^ 70

/-- A bound on the `Tick`s from `SV_NEXT` on: one witness test for each index after `wi` (43_sieve.md R165). -/
def ticksAfterTest (wi : Nibble) : Nat := testBudget * (15 - wi.toNat) + 1

/-- A bound on the `Tick`s a state can still take before its command ends (43_sieve.md R170). -/
def State.rank (s : State) : Nat :=
  match s.st with
  | .idle | .fault => 0
  | .mmRun => 1
  | .svNext => ticksAfterTest s.wi
  | .wtFin => ticksAfterTest s.wi + 1
  | .wtChk => ticksAfterTest s.wi + 2 * s.cnt.toNat + 1
  | .wtSqr => ticksAfterTest s.wi + 2 * s.cnt.toNat + 2
  | .wtLoad => ticksAfterTest s.wi + 2 * s.s.toNat + 3
  | .meTest => ticksAfterTest s.wi + 2 * s.s.toNat + 3 * s.exp.toNat + 4
  | .meSqr => ticksAfterTest s.wi + 2 * s.s.toNat + 3 * (s.exp.toNat / 2) + 5
  | .meMul => ticksAfterTest s.wi + 2 * s.s.toNat + 3 * (s.exp.toNat / 2) + 6
  | .meInit => ticksAfterTest s.wi + 2 * s.s.toNat + 3 * s.d.toNat + 5
  | .svWit => testBudget * (16 - s.wi.toNat)
  | .svScan => testBudget * 16 + 1 + (16 - s.row.toNat)
  | .svSel0 => testBudget * 16 + 18
  | .svDec => testBudget * 16 + 18 + (2 ^ 64 - s.s.toNat)
  | .svDec0 => testBudget * 16 + 18 + 2 ^ 64
  | .svQuick => testBudget * 16 + 19 + 2 ^ 64

/-- Every transition of a running command comes closer to its end. -/
theorem Transition.rank_lt (h : Transition s t) (hbusy : s.busy = true) : t.rank < s.rank := by
  have hd := s.d.isLt
  have hs := s.s.isLt
  have hwi := s.wi.isLt
  have hrow := s.row.isLt
  cases h
  case idle hst | fault hst => simp [busy_iff, hst] at hbusy
  all_goals simp only [State.rank, ticksAfterTest, testBudget, ‹s.st = _›]
  case meTestOdd hexp _ | meTestEven hexp _ => have := word_pos hexp; omega
  case meSqr => rw [half_toNat]; omega
  case wtChkMore hcnt _ => have := word_pos hcnt; rw [pred_toNat hcnt]; omega
  case wtChkLast hcnt _ => have := word_pos hcnt; omega
  case svDecHalve hfits => rw [successor_toNat hfits]; omega
  case svDec0 => rw [show (1 : Word).toNat = 1 from rfl]; omega
  case svSel0 => rw [show (0 : Nibble).toNat = 0 from rfl]; omega
  case svScanMore bound hbound _ =>
    have hlast := lt_of_romBound_eq_some hbound
    rw [successor_toNat (by omega)]; omega
  case svNextMore hfits => rw [successor_toNat hfits]; omega
  all_goals omega

end

end Sys2Proof.Machine
end

section
/-! SUPPORT. The sieve's arithmetic and its row scan, as far as soundness rests on them. -/

namespace Sys2Proof.Machine

/-! ## The arithmetic of the sieve -/

theorem bounds_of_quickVerdict_none {n : Word} (h : quickVerdict n = none) : 5 ≤ n.toNat ∧ n.toNat % 2 = 1 := by
  unfold quickVerdict at h
  split_ifs at h with h2 heven h3 hle
  have hodd : isOdd n = true := by
    by_contra hodd
    have hne : n ≠ 2 := fun he => hle (by rw [he]; decide)
    exact heven (by simpa [hodd] using hne)
  have := (isOdd_iff n).1 hodd
  omega

theorem decompInDomain_iff (n : Word) : decompInDomain n = true ↔ 3 ≤ n.toNat ∧ n.toNat % 2 = 1 := by
  rw [decompInDomain, Bool.and_eq_true, decide_eq_true_iff, isOdd_iff]

theorem decompInDomain_of_quickVerdict {n : Word} (h : quickVerdict n = none) : decompInDomain n = true := by
  obtain ⟨hfive, hodd⟩ := bounds_of_quickVerdict_none h
  exact (decompInDomain_iff n).2 ⟨by omega, hodd⟩

theorem ne_zero_of_toNat_pos {w : Nat} {v : BitVec w} (h : 0 < v.toNat) : v ≠ 0 := by
  rintro rfl
  simp at h

/-- `SV_DEC0` starts the decomposition (43_sieve.md R160). -/
theorem splits_start {n : Word} (h : decompInDomain n = true) : splits n 1 (half (n - 1)) := by
  obtain ⟨hthree, hodd⟩ := (decompInDomain_iff n).1 h
  have hhalf : (half (n - 1)).toNat = (n.toNat - 1) / 2 := by
    rw [half_toNat, pred_toNat (ne_zero_of_decompInDomain h)]
  refine ⟨by decide, by decide, ne_zero_of_toNat_pos (by omega), ?_⟩
  rw [hhalf, show (1 : Word).toNat = 1 from rfl]
  omega

/-- `SV_DEC` moves a factor 2 from `D` to `S` (43_sieve.md R161); there is room, for `n` is below `2^64`. -/
theorem splits_halve {n s d : Word} (h : splits n s d) (heven : isOdd d = false) (hfits : s.toNat + 1 < 2 ^ 64) :
    splits n (s + 1) (half d) := by
  obtain ⟨hpos, hle, hd, heq⟩ := h
  have hsucc := successor_toNat hfits
  have htwice : d.toNat = 2 * (half d).toNat := by
    have := (isOdd_false_iff d).1 heven
    rw [half_toNat]; omega
  have hhalf : 0 < (half d).toNat := by have := word_pos hd; omega
  have heq' : n.toNat = 2 ^ (s + 1).toNat * (half d).toNat + 1 := by rw [heq, htwice, hsucc]; ring
  refine ⟨by omega, ?_, ne_zero_of_toNat_pos hhalf, heq'⟩
  by_contra hbig
  have hpow : 2 ^ 64 ≤ 2 ^ (s + 1).toNat := Nat.pow_le_pow_right (by omega) (by omega)
  have := n.isLt
  nlinarith

/-! ## The row scan -/

theorem romBound_eq_some {r : Nat} {bound : Word} (h : romBound r = some bound) :
    ∃ row, romTable[r]? = some row ∧ row.1 = some bound := by
  rw [romBound, Option.bind_eq_some_iff] at h
  exact h

theorem wsel_le_of_lt_bound {n bound : Word} {r : Nat} (h : romBound r = some bound) (hlt : n.toNat < bound.toNat) :
    wsel n ≤ r := by
  by_contra hr
  obtain ⟨row, hrow, hb⟩ := romBound_eq_some h
  have hnot := List.not_of_lt_findIdx (p := rowAdmits n) (xs := romTable) (i := r) (by unfold wsel at hr; omega)
  obtain ⟨hi, hget⟩ := List.getElem?_eq_some_iff.1 hrow
  rw [hget] at hnot
  simp [rowAdmits, hb, hlt] at hnot

theorem wsel_ne_of_bound_le {n bound : Word} {r : Nat} (h : romBound r = some bound) (hle : bound.toNat ≤ n.toNat) :
    wsel n ≠ r := by
  rintro rfl
  obtain ⟨row, hrow, hb⟩ := romBound_eq_some h
  obtain ⟨hi, hget⟩ := List.getElem?_eq_some_iff.1 hrow
  have hadmits : rowAdmits n romTable[wsel n] = true := List.findIdx_getElem
  rw [hget] at hadmits
  simp [rowAdmits, hb] at hadmits
  omega

theorem rowSelects.eq_wsel {n : Word} {row : Nibble} (h : rowSelects n row) (hle : row.toNat ≤ wsel n) :
    row.toNat = wsel n := by
  obtain rfl | ⟨bound, hbound, hlt⟩ := h
  · have := wsel_lt n
    simp at hle ⊢
    omega
  · exact Nat.le_antisymm hle (wsel_le_of_lt_bound hbound hlt)

theorem romCount_bounds {r count : Nat} (h : romCount r = some count) : 1 ≤ count ∧ count ≤ 12 := by
  have hr : r < 12 := by
    by_contra hr
    simp [romCount, List.getElem?_eq_none (l := romTable) (Nat.not_lt.1 hr)] at h
  interval_cases r <;> simp [romCount, romTable] at h <;> omega

theorem romWit_isSome_iff {r k count : Nat} (h : romCount r = some count) :
    (romWit r k).isSome = true ↔ k < count := by
  rw [romWit_isSome, romCount_eq_some h]

end Sys2Proof.Machine
end

section
/-! SUPPORT. Every step keeps a sound state sound: soundness read by controller state, then one lemma per clause of R40 over the
controller's transitions, then the host's transactions. -/

namespace Sys2Proof.Machine

/-! ## Soundness read by controller state -/

/-- `ISPRIME` has survived quick elimination and decomposed `N − 1` (43_sieve.md R151, R152). -/
def State.decomposed (s : State) : Prop :=
  quickVerdict s.n = none ∧ splits s.n s.s s.d ∧ isOdd s.d = true

/-- `ISPRIME` has also selected the row and loaded its witness (43_sieve.md R153, R164). -/
def State.loaded (s : State) : Prop :=
  s.decomposed ∧ s.row.toNat = wsel s.n ∧ romWit s.row.toNat s.wi.toNat = some s.a

/-- What soundness asks of the data registers in each controller state. -/
def State.duty (s : State) : Prop :=
  match s.st with
  | .idle | .fault | .svQuick => True
  | .mmRun => s.n ≠ 0
  | .meInit | .meTest | .meMul | .meSqr | .wtLoad => s.n ≠ 0 ∧ (s.op ≠ 2 → s.s ≠ 0) ∧ (s.op = 6 → s.loaded)
  | .wtSqr | .wtChk => s.n ≠ 0 ∧ s.cnt ≠ 0 ∧ (s.op = 6 → s.loaded)
  | .wtFin => s.n ≠ 0 ∧ (s.op = 6 → s.loaded)
  | .svNext => s.op = 6 → s.loaded
  | .svDec0 => decompInDomain s.n = true ∧ (s.op = 6 → quickVerdict s.n = none)
  | .svDec => decompInDomain s.n = true ∧ splits s.n s.s s.d ∧ (s.op = 6 → quickVerdict s.n = none)
  | .svSel0 => s.op = 6 → s.decomposed
  | .svScan => s.row.toNat ≤ wsel s.n ∧ s.wi = 0 ∧ (s.op = 6 → s.decomposed)
  | .svWit => s.op = 6 → s.decomposed ∧ s.row.toNat = wsel s.n ∧ (romWit s.row.toNat s.wi.toNat).isSome = true

/-- The clauses of `State.Inv` about the data registers, read at one controller state, are its duty. Under every command
but `ISPRIME` the last of them, `sieveOk`, is empty. -/
theorem clauses_iff_duty {s : State} (hop : s.op ∈ s.st.opcodes) :
    (s.modulusOk ∧ s.countOk ∧ s.decompOk ∧ s.scanOk ∧ s.sieveOk) ↔ s.duty := by
  have hsome : romWit s.row.toNat s.wi.toNat = some s.a → (romWit s.row.toNat s.wi.toNat).isSome = true :=
    fun h => Option.isSome_of_eq_some h
  unfold State.duty State.modulusOk State.countOk State.decompOk State.scanOk State.sieveOk
  simp only [State.pastQuick, State.pastDecomp, State.pastSelection, State.busy, State.loaded, State.decomposed]
  generalize splits s.n s.s s.d = hasSplit
  by_cases h6 : s.op = 6#3
  · cases hst : s.st <;> simp [hst, h6, Ctl.inEngine, Ctl.inWitness, Ctl.opcodes] at hop ⊢
    all_goals grind
  · cases hst : s.st <;> simp [hst, h6, Ctl.inEngine, Ctl.inWitness, Ctl.opcodes] at hop ⊢

/-- Soundness, clause by clause: R40 (a), (b), (d), (e), then the duty of the controller state. -/
theorem inv_iff_duty {s : State} : s.Inv ↔ s.errOk ∧ s.doneOk ∧ s.rowOk ∧ s.opOk ∧ s.duty := by
  constructor
  · rintro ⟨herr, hdone, hrow, hop, hmodulus, hcount, hdecomp, hscan, hsieve⟩
    exact ⟨herr, hdone, hrow, hop, (clauses_iff_duty hop.1).1 ⟨hmodulus, hcount, hdecomp, hscan, hsieve⟩⟩
  · rintro ⟨herr, hdone, hrow, hop, hduty⟩
    obtain ⟨hmodulus, hcount, hdecomp, hscan, hsieve⟩ := (clauses_iff_duty hop.1).2 hduty
    exact ⟨herr, hdone, hrow, hop, hmodulus, hcount, hdecomp, hscan, hsieve⟩

section
variable {s t : State}

/-! ## Each transition keeps each clause -/

theorem Transition.errOk (h : Transition s t) (hs : s.errOk) : t.errOk := by
  cases h <;> simp_all [State.errOk]

theorem Transition.doneOk (h : Transition s t) (hs : s.doneOk) : t.doneOk := by
  cases h <;> simp_all [State.doneOk]

theorem Transition.opOk (h : Transition s t) (hs : s.opOk) : t.opOk := by
  cases h <;> simp_all [State.opOk, Ctl.opcodes]

/-- A witness that is not the last of its row is followed by another. -/
theorem State.loaded.succ_lt_count (h : s.loaded) {count : Nat} (hcount : romCount s.row.toNat = some count)
    (hmore : s.wi.toNat + 1 ≠ count) : s.wi.toNat + 1 < count := by
  obtain ⟨-, -, hwit⟩ := h
  have := (romWit_isSome_iff hcount).1 (Option.isSome_of_eq_some hwit)
  omega

theorem op_eq_isprime_of_svNext (hop : s.opOk) (hst : s.st = .svNext) : s.op = 6 := by
  simpa [State.opOk, hst, Ctl.opcodes] using hop.1

theorem op_eq_isprime_of_svWit (hop : s.opOk) (hst : s.st = .svWit) : s.op = 6 := by
  simpa [State.opOk, hst, Ctl.opcodes] using hop.1

theorem op_ne_modexp_of_wtLoad (hop : s.opOk) (hst : s.st = .wtLoad) : s.op ≠ 2 := by
  intro h2
  simpa [hst, h2, Ctl.opcodes] using hop.1

theorem Transition.rowOk (h : Transition s t) (hs : s.Inv) : t.rowOk := by
  obtain ⟨-, -, ⟨hrow, hwi⟩, hop, hduty⟩ := inv_iff_duty.1 hs
  cases h
  case svSel0 => simp [State.rowOk]
  case svScanMore bound hbound _ =>
    have hlt := lt_of_romBound_eq_some hbound
    exact ⟨by rw [successor_toNat (by omega)]; omega, hwi⟩
  case svNextMore hst hv count hcount hmore hfits =>
    simp only [State.duty, hst] at hduty
    have hlt := (hduty (op_eq_isprime_of_svNext hop hst)).succ_lt_count hcount hmore
    obtain ⟨-, htwelve⟩ := romCount_bounds hcount
    exact ⟨hrow, by rw [successor_toNat hfits]; omega⟩
  all_goals exact ⟨hrow, hwi⟩

/-- The first witness of the selected row exists. -/
theorem romWit_zero_isSome (n : Word) : (romWit (wsel n) 0).isSome = true := by
  obtain ⟨hpos, -⟩ := romCount_bounds (romCount_of_lt (wsel_lt n))
  exact (romWit_isSome _ _).2 hpos

/-- Each transition does the duty of the state it enters: engine and witness test hand theirs on, the sieve's states build
it up (43_sieve.md R167). -/
theorem Transition.duty (h : Transition s t) (hop : s.opOk) (hs : s.duty) : t.duty := by
  unfold State.duty at hs
  cases h <;> simp only [‹s.st = _›] at hs
  case idle hst | fault hst => simp only [State.duty, hst]
  case mmRun | meTestFinish | wtChkFinish | wtFinFinish | svQuickDecided | svDecFinish | svScanFinish |
    svNextFailed | svNextLast => trivial
  case meInit | meTestLoad | meTestOdd | meTestEven | meMul | meSqr | wtSqr => exact hs
  case wtLoad hst =>
    obtain ⟨hn, hS, hloaded⟩ := hs
    exact ⟨hn, hS (op_ne_modexp_of_wtLoad hop hst), hloaded⟩
  case wtChkReturn =>
    obtain ⟨-, -, hloaded⟩ := hs
    exact hloaded
  case wtFinReturn =>
    obtain ⟨-, hloaded⟩ := hs
    exact hloaded
  case wtChkLast =>
    obtain ⟨hn, -, hloaded⟩ := hs
    exact ⟨hn, hloaded⟩
  case wtChkMore hmore =>
    obtain ⟨hn, -, hloaded⟩ := hs
    exact ⟨hn, hmore, hloaded⟩
  case svQuickSurvived hquick => exact ⟨decompInDomain_of_quickVerdict hquick, fun _ => hquick⟩
  case svDec0 =>
    obtain ⟨hdomain, hquick⟩ := hs
    exact ⟨hdomain, splits_start hdomain, hquick⟩
  case svDecSelect hodd _ =>
    obtain ⟨-, hsplits, hquick⟩ := hs
    exact fun h6 => ⟨hquick h6, hsplits, hodd⟩
  case svDecHalve hst heven hfits =>
    obtain ⟨hdomain, hsplits, hquick⟩ := hs
    simp only [State.duty, hst]
    exact ⟨hdomain, splits_halve hsplits heven hfits, hquick⟩
  case svSel0 => exact ⟨Nat.zero_le _, rfl, hs⟩
  case svScanWit hrow _ =>
    obtain ⟨hle, hwi, hdecomposed⟩ := hs
    have heq := hrow.eq_wsel hle
    refine fun h6 => ⟨hdecomposed h6, heq, ?_⟩
    simp only [heq, hwi]
    exact romWit_zero_isSome s.n
  case svScanMore hst hrow bound hbound hge =>
    obtain ⟨hle, hwi, hdecomposed⟩ := hs
    have hlt := lt_of_romBound_eq_some hbound
    have hne := wsel_ne_of_bound_le hbound hge
    simp only [State.duty, hst]
    refine ⟨?_, hwi, hdecomposed⟩
    rw [successor_toNat (by omega)]
    omega
  case svWit hst witness hwit =>
    obtain ⟨hdecomposed, heq, -⟩ := hs (op_eq_isprime_of_svWit hop hst)
    obtain ⟨hquick, ⟨hS, -⟩, -⟩ := id hdecomposed
    obtain ⟨hfive, -⟩ := bounds_of_quickVerdict_none hquick
    have hn : s.n ≠ 0 := ne_zero_of_toNat_pos (by omega)
    exact ⟨hn, fun _ => ne_zero_of_toNat_pos hS, fun _ => ⟨hdecomposed, heq, hwit⟩⟩
  case svNextMore hst hv count hcount hmore hfits =>
    have hloaded := hs (op_eq_isprime_of_svNext hop hst)
    obtain ⟨hdecomposed, heq, -⟩ := id hloaded
    refine fun _ => ⟨hdecomposed, heq, (romWit_isSome_iff hcount).2 ?_⟩
    rw [successor_toNat hfits]
    exact hloaded.succ_lt_count hcount hmore

theorem State.Inv.tick_next (hs : s.Inv) (h : tick s = .next t) : t.Inv := by
  obtain ⟨herr, hdone, -, hop, hduty⟩ := inv_iff_duty.1 hs
  have h := Transition.of_tick h
  exact inv_iff_duty.2 ⟨h.errOk herr, h.doneOk hdone, h.rowOk hs, h.opOk hop, h.duty hop hduty⟩

/-! ## Each host transaction keeps soundness -/

/-- In `IDLE` soundness asks nothing of the data registers. -/
theorem inv_of_idle (hst : t.st = .idle) (herr : t.err = 0) (hrow : t.rowOk) (hop : t.op ∈ Ctl.idle.opcodes)
    (hdone : t.op = 0 → t.done = false) : t.Inv :=
  inv_iff_duty.2 ⟨⟨by simp [hst, herr], by simp [herr]⟩, fun _ => hst, hrow, ⟨hst ▸ hop, hdone⟩,
    by simp only [State.duty, hst]⟩

theorem State.Inv.err_eq_zero (h : s.Inv) (hst : s.st ≠ .fault) : s.err = 0 := by
  obtain ⟨herr, -⟩ := h.errOk
  exact Decidable.not_not.1 fun hne => hst (herr.1 hne)

theorem State.Inv.op_mem (h : s.Inv) (hst : s.st = .idle) : s.op ∈ Ctl.idle.opcodes := hst ▸ h.opOk.1

theorem State.Inv.raiseFault (h : s.Inv) (hst : s.st = .idle) {code : Nibble} (hne : code ≠ 0)
    (hle : code.toNat ≤ 4) : (s.raiseFault code).Inv :=
  inv_iff_duty.2 ⟨⟨iff_of_true hne rfl, hle⟩, nofun, h.rowOk, ⟨h.op_mem hst, fun _ => rfl⟩, trivial⟩

theorem State.Inv.storeWord (h : s.Inv) (hst : s.st = .idle) (addr : WordIndex) (w : Word) :
    (s.storeWord addr w).Inv := by
  obtain ⟨-, hdone⟩ := h.opOk
  refine inv_of_idle ?_ ?_ ?_ ?_ ?_
  · rw [storeWord_st, hst]
  · rw [storeWord_err, h.err_eq_zero (by simp [hst])]
  · simpa [State.rowOk] using h.rowOk
  · rw [storeWord_op]; exact h.op_mem hst
  · rwa [storeWord_op, storeWord_done]

/-- The checks of 30_encoding.md R90 lines 2 to 4 that a command passes. -/
def accepted (i : Instr) (s : State) : Prop :=
  match i with
  | .mulmod | .modexp => s.n ≠ 0
  | .wtest => s.n ≠ 0 ∧ s.s ≠ 0
  | .decomp => decompInDomain s.n = true
  | .wsel | .isprime => True

/-- Everything that issuing a command to an idle block can do (30_encoding.md R90 lines 2 to 5). -/
theorem issued_cases (i : Instr) (s : State) :
    (accepted i s ∧ issued i s = s.accept i) ∨
      (¬ accepted i s ∧ ∃ code : Nibble, code ≠ 0 ∧ code.toNat ≤ 4 ∧ issued i s = s.raiseFault code) := by
  cases i <;> simp only [accepted, issued]
  case mulmod | modexp =>
    by_cases hn : s.n = 0
    · exact .inr ⟨not_not.2 hn, zeroModulus, by decide, by decide, if_pos hn⟩
    · exact .inl ⟨hn, if_neg hn⟩
  case wtest =>
    by_cases hn : s.n = 0
    · exact .inr ⟨fun h => h.1 hn, zeroModulus, by decide, by decide, if_pos hn⟩
    · by_cases hS : s.s = 0
      · exact .inr ⟨fun h => h.2 hS, zeroS, by decide, by decide, by rw [if_neg hn, if_pos hS]⟩
      · exact .inl ⟨⟨hn, hS⟩, by rw [if_neg hn, if_neg hS]⟩
  case decomp =>
    by_cases hdomain : decompInDomain s.n = true
    · exact .inl ⟨hdomain, if_pos hdomain⟩
    · exact .inr ⟨hdomain, decompDomain, by decide, by decide, if_neg hdomain⟩
  case wsel | isprime => exact .inl ⟨trivial, trivial⟩

/-- What acceptance has checked is the duty of the entry state. -/
theorem accepted.duty {i : Instr} (h : accepted i s) : (s.accept i).duty := by
  cases i
  case mulmod => exact h
  case modexp => exact ⟨h, nofun, nofun⟩
  case wtest =>
    obtain ⟨hn, hS⟩ := h
    exact ⟨hn, fun _ => hS, nofun⟩
  case decomp => exact ⟨h, nofun⟩
  case wsel => exact nofun
  case isprime => trivial

theorem State.Inv.accept (h : s.Inv) (hst : s.st = .idle) {i : Instr} (hi : accepted i s) : (s.accept i).Inv := by
  have herr := h.err_eq_zero (by simp [hst])
  refine inv_iff_duty.2 ⟨?_, nofun, h.rowOk, ?_, hi.duty⟩
  · cases i <;> simp [State.errOk, herr, entryState]
  · cases i <;> simp [State.opOk, Instr.opcode, entryState, Ctl.opcodes]

theorem State.Inv.issued (h : s.Inv) (hst : s.st = .idle) (i : Instr) : (issued i s).Inv := by
  obtain ⟨hi, heq⟩ | ⟨-, code, hne, hle, heq⟩ := issued_cases i s
  · rw [heq]; exact h.accept hst hi
  · rw [heq]; exact h.raiseFault hst hne hle

/-- Soundness does not speak of `OVR`. -/
theorem State.Inv.withOvr (h : s.Inv) : State.Inv { s with ovr := true } :=
  ⟨h.errOk, h.doneOk, h.rowOk, h.opOk, h.modulusOk, h.countOk, h.decompOk, h.scanOk, h.sieveOk⟩

/-- Soundness does not speak of the host's own record. -/
theorem State.Inv.withReads (h : s.Inv) (reads : List Word) (draws : Nat) :
    State.Inv { s with reads := reads, draws := draws } :=
  ⟨h.errOk, h.doneOk, h.rowOk, h.opOk, h.modulusOk, h.countOk, h.decompOk, h.scanOk, h.sieveOk⟩

theorem State.Inv.hostRead (h : s.Inv) (addr : WordIndex) : (hostRead addr s).Inv := by
  obtain ⟨v, -, heq⟩ | ⟨-, heq⟩ := hostRead_cases addr s
  · exact heq ▸ h.withReads _ _
  · exact heq ▸ h.withReads _ _

theorem State.Inv.whenIdle (h : s.Inv) {effect : State} (heffect : s.st = .idle → effect.Inv) :
    (whenIdle s effect).Inv := by
  obtain ⟨hst, heq⟩ | ⟨-, heq⟩ | ⟨-, heq⟩ := whenIdle_cases s effect
  · rw [heq]; exact heffect hst
  · rw [heq]; exact h
  · rw [heq]; exact h.withOvr

theorem State.Inv.hostWrite_next (h : s.Inv) {addr : WordIndex} {v : Word} (ht : hostWrite addr v s = .next t) :
    t.Inv := by
  rw [hostWrite_eq] at ht
  cases ht
  refine h.whenIdle fun hst => ?_
  split_ifs
  · split
    · exact h.issued hst _
    · exact h.raiseFault hst (by decide) (by decide)
  · exact h.storeWord hst addr v

theorem inv_resetBlock (s : State) : s.resetBlock.Inv :=
  inv_of_idle rfl rfl (by simp [State.rowOk]) (by simp [Ctl.opcodes]) fun _ => rfl

theorem State.Inv.runEvent_next (h : s.Inv) {e : Event} (ht : runEvent e s = .next t) : t.Inv := by
  cases e with
  | read addr => cases ht; exact h.hostRead addr
  | write addr v => exact h.hostWrite_next ht
  | reset => cases ht; exact inv_resetBlock s
  | tick => exact h.tick_next ht
  | wait =>
    rw [runEvent] at ht
    split at ht
    · exact (h.withPending _).tick_next ht
    · cases ht; exact h

theorem State.Inv.step_next (h : s.Inv) (ht : step s = .next t) : t.Inv := by
  rw [step, stepEvent] at ht
  split at ht
  · exact h.tick_next ht
  · exact (h.withPending _).runEvent_next ht

end

/-- Settles O46: a step is a `Tick` or a host transaction, and each keeps every clause. -/
theorem stepKeepsStatesSound : Obligations.StepKeepsStatesSound := fun _ _ h ht => h.step_next ht

/-- Settles O45: the reset state is idle with no fault, so soundness asks nothing of its data registers. -/
theorem resetStateIsSound : Obligations.ResetStateIsSound := fun _ => (inv_resetBlock State.reset).withPending _

/-- A run of `k + 1` steps that answers is a step that answers and a run from there. -/
theorem run_succ_next {k : Nat} {s t : State} (h : core.run (k + 1) s = .next t) :
    ∃ u, step s = .next u ∧ core.run k u = .next t := by
  have hrun := Host.Core.run.eq_2 core s k
  rw [h] at hrun
  split at hrun
  · next u hu => exact ⟨u, hu, hrun.symm⟩
  · cases hrun
  · cases hrun

/-- A predicate that every step keeps holds wherever a run arrives. -/
theorem run_next_of_step {P : State → Prop} (hstep : ∀ s t, P s → step s = .next t → P t) {k : Nat} {s t : State}
    (hs : P s) (hrun : core.run k s = .next t) : P t := by
  induction k generalizing s with
  | zero => cases hrun; exact hs
  | succ k ih =>
    obtain ⟨u, hu, hrest⟩ := run_succ_next hrun
    exact ih (hstep s u hs hu) hrest

section
variable {s : State}

theorem toNat_le_of_mem_opcodes {c : Ctl} {op : Opcode} (h : op ∈ c.opcodes) : op.toNat ≤ 6 := by
  cases c <;> revert op <;> decide

theorem State.Inv.op_ne_zero (h : s.Inv) (hbusy : s.busy = true) : s.op ≠ 0 := by
  obtain ⟨hop, -⟩ := h.opOk
  intro h0
  rw [h0] at hop
  cases hst : s.st <;> simp [hst, busy_iff, Ctl.opcodes] at hbusy hop

theorem State.Inv.done_eq_false (h : s.Inv) (hbusy : s.busy = true) : s.done = false := by
  obtain ⟨hidle, -⟩ := (busy_iff s).1 hbusy
  exact Bool.eq_false_iff.2 fun hdone => hidle (h.doneOk hdone)

end

/-- Settles O48: the reset state is sound (O45), every step keeps it so (O46), and each clause of R40 is read off
soundness. -/
theorem reachableStatesKeepTheInvariants : Obligations.ReachableStatesKeepTheInvariants := by
  intro events k t hrun
  have h : t.Inv := run_next_of_step stepKeepsStatesSound (resetStateIsSound events) hrun
  obtain ⟨herr, -⟩ := h.errOk
  obtain ⟨hop, hopDone⟩ := h.opOk
  obtain ⟨hcnt, -⟩ := h.countOk
  obtain ⟨hrow, hwi⟩ := h.rowOk
  have hsix := toNat_le_of_mem_opcodes hop
  refine ⟨herr, h.doneOk, ?_, ?_, ?_, hrow, hwi, hsix, ?_, ?_, ?_⟩
  · rintro ⟨hbusy, hdone⟩
    simp [h.done_eq_false hbusy] at hdone
  · rintro ⟨hbusy, hne⟩
    obtain ⟨-, hfault⟩ := (busy_iff t).1 hbusy
    exact hfault (herr.1 hne)
  · rintro ⟨hdone, hne⟩
    have hidle := h.doneOk hdone
    simp [herr.1 hne] at hidle
  · intro h0
    have hbusy : t.busy = false := Bool.eq_false_iff.2 fun hbusy => h.op_ne_zero hbusy h0
    exact ⟨hbusy, hopDone h0⟩
  · intro hst
    refine word_pos (h.modulusOk ?_)
    simp only [List.mem_cons, List.not_mem_nil, or_false] at hst
    obtain hst | hst | hst | hst | hst | hst | hst | hst | hst := hst <;> simp [hst, Ctl.inEngine, Ctl.inWitness]
  · intro hst
    exact word_pos (hcnt (by simpa using hst))

end Sys2Proof.Machine
end

section
/-! SUPPORT. A command's results depend on its operands alone: two runs that agree on what the command has read or computed go in
lockstep, and a sound one ends. -/

namespace Sys2Proof.Machine

/-! ## What two runs of a command agree on -/

/-- What the engine and the witness test take from outside: the base, the exponent, and, where it is used, the number of
squarings; under `ISPRIME` also the witness's place in the ROM. -/
def SameTestOperands (s t : State) : Prop :=
  s.a = t.a ∧ s.d = t.d ∧ (s.op ≠ 2 → s.s = t.s) ∧ (s.op = 6 → s.row = t.row ∧ s.wi = t.wi)

/-- The engine's own registers. -/
def SameEngine (s t : State) : Prop := s.r = t.r ∧ s.base = t.base ∧ s.exp = t.exp

/-- The registers of the witness test's loop. -/
def SameSquares (s t : State) : Prop := s.x = t.x ∧ s.y = t.y ∧ s.cnt = t.cnt

/-- The registers that hold what the command has read or computed so far, by controller state. -/
def SameLive (s t : State) : Prop :=
  match s.st with
  | .idle => ∀ i : Instr, s.op = i.opcode → Claims.sameResults i s t
  | .fault => False
  | .mmRun => s.a = t.a ∧ s.d = t.d
  | .meInit => SameTestOperands s t
  | .meTest | .meMul | .meSqr | .wtLoad => SameTestOperands s t ∧ SameEngine s t
  | .wtSqr => SameTestOperands s t ∧ SameEngine s t ∧ s.x = t.x ∧ s.cnt = t.cnt
  | .wtChk | .wtFin => SameTestOperands s t ∧ SameEngine s t ∧ SameSquares s t
  | .svNext => SameTestOperands s t ∧ SameEngine s t ∧ SameSquares s t ∧ s.v = t.v
  | .svQuick | .svDec0 => True
  | .svDec => s.s = t.s ∧ s.d = t.d
  | .svSel0 => s.op = 6 → s.s = t.s ∧ s.d = t.d
  | .svScan => (s.row = t.row ∧ s.wi = t.wi) ∧ (s.op = 6 → s.s = t.s ∧ s.d = t.d)
  | .svWit => (s.row = t.row ∧ s.wi = t.wi) ∧ s.s = t.s ∧ s.d = t.d

/-- Two states of one command that differ in nothing the command has read or computed. -/
structure Lockstep (s t : State) : Prop where
  st : s.st = t.st
  op : s.op = t.op
  done : s.done = t.done
  n : s.n = t.n
  live : SameLive s t

section
variable {s s' t : State}

theorem instrOfOpcode_opcode (i : Instr) : instrOfOpcode i.opcode = some i := by
  cases i <;> rfl

theorem opcode_injective : Function.Injective Instr.opcode := fun i j h =>
  Option.some.inj (by rw [← instrOfOpcode_opcode, h, instrOfOpcode_opcode])

theorem sameLive_of_idle {i : Instr} (hst : s.st = .idle) (hop : s.op = i.opcode) (h : Claims.sameResults i s t) :
    SameLive s t := by
  simp only [SameLive, hst]
  intro j hj
  exact opcode_injective (hop ▸ hj) ▸ h

/-- Back from the witness test, `ISPRIME` has written everything that R82 says it writes. -/
theorem sameResults_of_svNext (hop : s.op = 6)
    (h : SameTestOperands s t ∧ SameEngine s t ∧ SameSquares s t ∧ s.v = t.v) : Claims.sameResults .isprime s t := by
  obtain ⟨⟨ha, hd, hs, hplace⟩, ⟨hr, hbase, hexp⟩, ⟨hx, hy, hcnt⟩, hv⟩ := h
  obtain ⟨hrow, hwi⟩ := hplace hop
  exact ⟨hv, fun _ => ⟨hs (by simp [hop]), hd, hrow, hwi, ha, hr, hbase, hexp, hx, hy, hcnt⟩⟩

/-- A transition takes two states in lockstep to two states in lockstep: what it reads is what they agree on. -/
theorem Transition.lockstep (h : Transition s s') (hop : s.opOk) (hlock : Lockstep s t) :
    ∃ t', Transition t t' ∧ Lockstep s' t' := by
  obtain ⟨hst, hop', hdone, hn, hlive⟩ := hlock
  obtain ⟨hop, -⟩ := hop
  unfold SameLive at hlive
  cases h <;> simp only [‹s.st = _›] at hlive hop
  case idle hctl =>
    exact ⟨t, .idle (hst ▸ hctl), hst, hop', hdone, hn, by simpa only [SameLive, hctl] using hlive⟩
  case mmRun hctl h0 =>
    refine ⟨_, .mmRun (hst ▸ hctl) (hn ▸ h0), rfl, hop', rfl, hn, ?_⟩
    obtain ⟨ha, hd⟩ := hlive
    have h1 : s.op = 1 := List.mem_singleton.1 hop
    exact sameLive_of_idle (i := .mulmod) rfl h1 (by simp [Claims.sameResults, ha, hd, hn])
  case meInit hctl h0 =>
    refine ⟨_, .meInit (hst ▸ hctl) (hn ▸ h0), rfl, hop', hdone, hn, ?_⟩
    simp_all [SameLive, SameEngine, SameTestOperands]
  case meTestFinish hctl h0 h2 =>
    obtain ⟨-, hr, hbase, hexp⟩ := hlive
    refine ⟨_, .meTestFinish (hst ▸ hctl) (hexp ▸ h0) (hop' ▸ h2), rfl, hop', rfl, hn, ?_⟩
    exact sameLive_of_idle (i := .modexp) rfl h2 ⟨hr, hbase, hexp⟩
  case meTestLoad hctl h0 h2 =>
    have ⟨_, _, _, hexp⟩ := hlive
    exact ⟨_, .meTestLoad (hst ▸ hctl) (hexp ▸ h0) (hop' ▸ h2), rfl, hop', hdone, hn, hlive⟩
  case meTestOdd hctl h0 hodd =>
    have ⟨_, _, _, hexp⟩ := hlive
    exact ⟨_, .meTestOdd (hst ▸ hctl) (hexp ▸ h0) (hexp ▸ hodd), rfl, hop', hdone, hn, hlive⟩
  case meTestEven hctl h0 heven =>
    have ⟨_, _, _, hexp⟩ := hlive
    exact ⟨_, .meTestEven (hst ▸ hctl) (hexp ▸ h0) (hexp ▸ heven), rfl, hop', hdone, hn, hlive⟩
  case meMul hctl h0 =>
    obtain ⟨htest, hr, hbase, hexp⟩ := hlive
    exact ⟨_, .meMul (hst ▸ hctl) (hn ▸ h0), rfl, hop', hdone, hn, htest, by simp [hr, hbase, hn], hbase, hexp⟩
  case meSqr hctl h0 =>
    obtain ⟨htest, hr, hbase, hexp⟩ := hlive
    exact ⟨_, .meSqr (hst ▸ hctl) (hn ▸ h0), rfl, hop', hdone, hn, htest, hr, by simp [hbase, hn], by simp [hexp]⟩
  case wtLoad hctl =>
    obtain ⟨⟨ha, hd, hs, hrow⟩, hengine⟩ := hlive
    have h2 : s.op ≠ 2 := by intro h2; simp [h2, Ctl.opcodes] at hop
    exact ⟨_, .wtLoad (hst ▸ hctl), rfl, hop', hdone, hn, ⟨ha, hd, hs, hrow⟩, hengine, hengine.1, hs h2⟩
  case wtSqr hctl h0 =>
    obtain ⟨htest, hengine, hx, hcnt⟩ := hlive
    exact ⟨_, .wtSqr (hst ▸ hctl) (hn ▸ h0), rfl, hop', hdone, hn, htest, hengine, hx, by simp [hx, hn], hcnt⟩
  case wtChkFinish hctl h0 hroot h3 =>
    obtain ⟨-, ⟨hr, hbase, hexp⟩, hx, hy, hcnt⟩ := hlive
    refine ⟨_, .wtChkFinish (hst ▸ hctl) (hn ▸ h0) (hn ▸ hx ▸ hy ▸ hroot) (hop' ▸ h3), rfl, hop', rfl, hn, ?_⟩
    exact sameLive_of_idle (i := .wtest) rfl h3 ⟨rfl, hr, hbase, hexp, hx, hy, hcnt⟩
  case wtChkReturn hctl h0 hroot h3 =>
    obtain ⟨htest, hengine, hx, hy, hcnt⟩ := hlive
    exact ⟨_, .wtChkReturn (hst ▸ hctl) (hn ▸ h0) (hn ▸ hx ▸ hy ▸ hroot) (hop' ▸ h3), rfl, hop', hdone, hn,
      htest, hengine, ⟨hx, hy, hcnt⟩, rfl⟩
  case wtChkLast hctl h0 hroot hne hlast =>
    obtain ⟨htest, hengine, hx, hy, hcnt⟩ := hlive
    exact ⟨_, .wtChkLast (hst ▸ hctl) (hn ▸ h0) (hn ▸ hx ▸ hy ▸ hroot) (hcnt ▸ hne) (hcnt ▸ hlast), rfl, hop', hdone,
      hn, htest, hengine, hy, hy, by simp [hcnt]⟩
  case wtChkMore hctl h0 hroot hne hmore =>
    obtain ⟨htest, hengine, hx, hy, hcnt⟩ := hlive
    exact ⟨_, .wtChkMore (hst ▸ hctl) (hn ▸ h0) (hn ▸ hx ▸ hy ▸ hroot) (hcnt ▸ hne) (hcnt ▸ hmore), rfl, hop', hdone,
      hn, htest, hengine, hy, by simp [hcnt]⟩
  case wtFinFinish hctl h3 =>
    obtain ⟨-, ⟨hr, hbase, hexp⟩, hx, hy, hcnt⟩ := hlive
    refine ⟨_, .wtFinFinish (hst ▸ hctl) (hop' ▸ h3), rfl, hop', rfl, hn, ?_⟩
    exact sameLive_of_idle (i := .wtest) rfl h3 ⟨by simp [hy], hr, hbase, hexp, hx, hy, hcnt⟩
  case wtFinReturn hctl h3 =>
    obtain ⟨htest, hengine, hx, hy, hcnt⟩ := hlive
    exact ⟨_, .wtFinReturn (hst ▸ hctl) (hop' ▸ h3), rfl, hop', hdone, hn, htest, hengine, ⟨hx, hy, hcnt⟩, by simp [hy]⟩
  case svQuickDecided hctl verdict hquick =>
    refine ⟨_, .svQuickDecided (hst ▸ hctl) verdict (hn ▸ hquick), rfl, hop', rfl, hn, ?_⟩
    have h6 : s.op = 6 := List.mem_singleton.1 hop
    exact sameLive_of_idle (i := .isprime) rfl h6 ⟨rfl, by simp [hquick]⟩
  case svQuickSurvived hctl hquick =>
    exact ⟨_, .svQuickSurvived (hst ▸ hctl) (hn ▸ hquick), rfl, hop', hdone, hn, trivial⟩
  case svDec0 hctl h0 =>
    exact ⟨_, .svDec0 (hst ▸ hctl) (hn ▸ h0), rfl, hop', hdone, hn, rfl, by simp [hn]⟩
  case svDecFinish hctl hodd h4 =>
    obtain ⟨hs, hd⟩ := hlive
    refine ⟨_, .svDecFinish (hst ▸ hctl) (hd ▸ hodd) (hop' ▸ h4), rfl, hop', rfl, hn, ?_⟩
    exact sameLive_of_idle (i := .decomp) rfl h4 ⟨hs, hd⟩
  case svDecSelect hctl hodd h4 =>
    obtain ⟨hs, hd⟩ := hlive
    exact ⟨_, .svDecSelect (hst ▸ hctl) (hd ▸ hodd) (hop' ▸ h4), rfl, hop', hdone, hn, fun _ => ⟨hs, hd⟩⟩
  case svDecHalve hctl heven hfits =>
    obtain ⟨hs, hd⟩ := hlive
    refine ⟨_, .svDecHalve (hst ▸ hctl) (hd ▸ heven) (hs ▸ hfits), hst, hop', hdone, hn, ?_⟩
    simp [SameLive, hctl, hs, hd]
  case svSel0 hctl =>
    exact ⟨_, .svSel0 (hst ▸ hctl), rfl, hop', hdone, hn, ⟨rfl, rfl⟩, hlive⟩
  case svScanFinish hctl hrow h5 =>
    obtain ⟨⟨hr, hw⟩, -⟩ := hlive
    refine ⟨_, .svScanFinish (hst ▸ hctl) (hn ▸ hr ▸ hrow) (hop' ▸ h5), rfl, hop', rfl, hn, ?_⟩
    exact sameLive_of_idle (i := .wsel) rfl h5 ⟨hr, hw⟩
  case svScanWit hctl hrow h5 =>
    obtain ⟨⟨hr, hw⟩, hsplit⟩ := hlive
    have h6 : s.op = 6 := (List.mem_pair.1 hop).resolve_left h5
    exact ⟨_, .svScanWit (hst ▸ hctl) (hn ▸ hr ▸ hrow) (hop' ▸ h5), rfl, hop', hdone, hn, ⟨hr, hw⟩, hsplit h6⟩
  case svScanMore hctl hrow bound hbound hle =>
    obtain ⟨⟨hr, hw⟩, hsplit⟩ := hlive
    refine ⟨_, .svScanMore (hst ▸ hctl) (hr ▸ hrow) bound (hr ▸ hbound) (hn ▸ hle), hst, hop', hdone, hn, ?_⟩
    simp only [SameLive, hctl]
    exact ⟨⟨by simp [hr], hw⟩, hsplit⟩
  case svWit hctl witness hwit =>
    obtain ⟨⟨hr, hw⟩, hs, hd⟩ := hlive
    exact ⟨_, .svWit (hst ▸ hctl) witness (hr ▸ hw ▸ hwit), rfl, hop', hdone, hn, rfl, hd, fun _ => hs,
      fun _ => ⟨hr, hw⟩⟩
  case svNextFailed hctl hv =>
    have h6 : s.op = 6 := List.mem_singleton.1 hop
    have ⟨_, _, _, hverdict⟩ := hlive
    refine ⟨_, .svNextFailed (hst ▸ hctl) (hverdict ▸ hv), rfl, hop', rfl, hn, ?_⟩
    exact sameLive_of_idle (i := .isprime) rfl h6 (sameResults_of_svNext h6 hlive)
  case svNextLast hctl hv hcount =>
    have h6 : s.op = 6 := List.mem_singleton.1 hop
    have ⟨⟨_, _, _, hrow⟩, _, _, hverdict⟩ := hlive
    obtain ⟨hr, hw⟩ := hrow h6
    refine ⟨_, .svNextLast (hst ▸ hctl) (hverdict ▸ hv) (hr ▸ hw ▸ hcount), rfl, hop', rfl, hn, ?_⟩
    exact sameLive_of_idle (i := .isprime) rfl h6 (sameResults_of_svNext h6 hlive)
  case svNextMore hctl hv count hcount hmore hfits =>
    have h6 : s.op = 6 := List.mem_singleton.1 hop
    obtain ⟨⟨_, hd, hs, hrow⟩, _, _, hverdict⟩ := hlive
    obtain ⟨hr, hw⟩ := hrow h6
    exact ⟨_, .svNextMore (hst ▸ hctl) (hverdict ▸ hv) count (hr ▸ hcount) (hw ▸ hmore) (hw ▸ hfits), rfl, hop', hdone,
      hn, ⟨hr, by simp [hw]⟩, hs (by simp [h6]), hd⟩

/-! ## Runs in lockstep -/

theorem ticks_succ_next {k : Nat} (h : ticks (k + 1) s = .next s') : ∃ u, tick s = .next u ∧ ticks k u = .next s' := by
  rw [ticks] at h
  split at h
  · next u hu => exact ⟨u, hu, h⟩
  · cases h
  · cases h

theorem Lockstep.ticks {k : Nat} (hlock : Lockstep s t) (hs : s.Inv) (h : ticks k s = .next s') :
    ∃ t', ticks k t = .next t' ∧ Lockstep s' t' := by
  induction k generalizing s t with
  | zero => cases h; exact ⟨t, rfl, hlock⟩
  | succ k ih =>
    obtain ⟨u, hu, hrest⟩ := ticks_succ_next h
    obtain ⟨w, hw, hlock'⟩ := (Transition.of_tick hu).lockstep hs.opOk hlock
    obtain ⟨t', ht', hfinal⟩ := ih hlock' (hs.tick_next hu) hrest
    exact ⟨t', by rw [ticks_succ_of_tick k hw.tick_eq, ht'], hfinal⟩

/-- A transition that ends a command completes it. -/
theorem Transition.completes (h : Transition s t) (hbusy : s.busy = true) (hend : t.busy = false) :
    t.st = .idle ∧ t.done = true := by
  cases h <;> simp_all [busy_iff, busy_eq_false_iff]

/-- A running command of a sound state completes (43_sieve.md R170). -/
theorem State.Inv.exists_ticks_done (h : s.Inv) (hbusy : s.busy = true) :
    ∃ k t, Machine.ticks k s = .next t ∧ t.st = .idle ∧ t.done = true ∧ t.op = s.op := by
  induction hrank : s.rank using Nat.strong_induction_on generalizing s with
  | _ rank ih =>
    obtain ⟨u, hu⟩ := h.tick_answers
    have htrans := Transition.of_tick hu
    obtain ⟨-, hop, -⟩ := tickWritesOnlyTheNamedRegisters s u hu
    cases hend : u.busy with
    | false =>
      obtain ⟨hst, hdone⟩ := htrans.completes hbusy hend
      exact ⟨1, u, by rw [ticks_succ_of_tick 0 hu, ticks_zero], hst, hdone, hop⟩
    | true =>
      obtain ⟨k, t, ht, hst, hdone, hop'⟩ := ih u.rank (hrank ▸ htrans.rank_lt hbusy) (h.tick_next hu) hend rfl
      exact ⟨k + 1, t, by rw [ticks_succ_of_tick k hu, ht], hst, hdone, hop'.trans hop⟩

/-! ## From the operands to the results -/

theorem sameOperands_n {i : Instr} (h : Claims.sameOperands i s t) : s.n = t.n := by
  cases i
  case mulmod | modexp | wtest => exact h.1
  case decomp | wsel | isprime => exact h

theorem Lockstep.of_accept {i : Instr} (h : Claims.sameOperands i s t) : Lockstep (s.accept i) (t.accept i) := by
  have hn : s.n = t.n := sameOperands_n h
  refine ⟨rfl, rfl, rfl, hn, ?_⟩
  cases i
  case mulmod =>
    obtain ⟨-, ha, hd⟩ := h
    exact ⟨ha, hd⟩
  case modexp =>
    obtain ⟨-, ha, hd⟩ := h
    exact ⟨ha, hd, nofun, nofun⟩
  case wtest =>
    obtain ⟨-, hs, hd, ha⟩ := h
    exact ⟨ha, hd, fun _ => hs, nofun⟩
  case decomp | isprime => trivial
  case wsel => exact nofun

theorem accepted_of_sameOperands {i : Instr} (h : Claims.sameOperands i s t) (hs : accepted i s) : accepted i t := by
  have hn : s.n = t.n := sameOperands_n h
  cases i
  case mulmod | modexp | decomp => simpa only [accepted, hn] using hs
  case wtest =>
    obtain ⟨-, hS, -⟩ := h
    obtain ⟨hn0, hS0⟩ := hs
    exact ⟨hn ▸ hn0, hS ▸ hS0⟩
  case wsel | isprime => trivial

theorem sameOperands_symm {i : Instr} (h : Claims.sameOperands i s t) : Claims.sameOperands i t s := by
  cases i <;> simp_all [Claims.sameOperands]

theorem sameOperands_trans {i : Instr} {u : State} (h : Claims.sameOperands i s t) (h' : Claims.sameOperands i t u) :
    Claims.sameOperands i s u := by
  cases i <;> simp_all [Claims.sameOperands]

theorem Lockstep.sameResults {i : Instr} (h : Lockstep s t) (hst : s.st = .idle) (hop : s.op = i.opcode) :
    Claims.sameResults i s t := by
  have hlive := h.live
  simp only [SameLive, hst] at hlive
  exact hlive i hop

theorem sameResults_of_common {i : Instr} {t1 t2 : State} (hn : s.n = t1.n) (h1 : Claims.sameResults i s t1)
    (h2 : Claims.sameResults i s t2) : Claims.sameResults i t1 t2 := by
  cases i <;> simp_all [Claims.sameResults]

/-- The reset state with the operands of `s`: a sound state, from which a command computes what it computes from `s`. -/
def State.operandsOnly (s : State) : State := { State.reset with n := s.n, a := s.a, d := s.d, s := s.s }

theorem inv_operandsOnly (s : State) : s.operandsOnly.Inv :=
  inv_of_idle rfl rfl ⟨Nat.zero_le _, Nat.zero_le _⟩ (List.mem_cons_self ..) fun _ => rfl

theorem sameOperands_operandsOnly (i : Instr) (s : State) : Claims.sameOperands i s.operandsOnly s := by
  cases i <;> simp [Claims.sameOperands, State.operandsOnly]

theorem exec_of_accepted {i : Instr} (hidle : s.st = .idle) (hi : accepted i s) : exec i s = .next (s.accept i) := by
  obtain ⟨-, heq⟩ | ⟨hnot, -⟩ := issued_cases i s
  · rw [exec_eq, whenIdle_of_idle _ hidle, heq]
  · exact absurd hi hnot

theorem accepted_of_exec {i : Instr} (hidle : s.st = .idle) (h : exec i s = .next t) (hfault : t.st ≠ .fault) :
    accepted i s := by
  rw [exec_eq, whenIdle_of_idle _ hidle] at h
  cases h
  obtain ⟨hi, -⟩ | ⟨-, code, -, -, heq⟩ := issued_cases i s
  · exact hi
  · simp [heq] at hfault

theorem busy_accept (i : Instr) (s : State) : (s.accept i).busy = true := by
  cases i <;> rfl

end

/-- Settles O37: both runs go in lockstep with the run from the reset state with the same operands, which completes. -/
theorem resultsDependOnOperandsAlone : Obligations.ResultsDependOnOperandsAlone := by
  intro i s1 s2 u1 hidle1 hidle2 hsame hexec hfault
  have haccepted : accepted i s1 := accepted_of_exec hidle1 hexec hfault
  have hops1 := sameOperands_operandsOnly i s1
  have hops2 : Claims.sameOperands i s1.operandsOnly s2 := sameOperands_trans hops1 hsame
  have haccepted0 : accepted i s1.operandsOnly := accepted_of_sameOperands (sameOperands_symm hops1) haccepted
  have hinv := (inv_operandsOnly s1).accept rfl haccepted0
  obtain ⟨k, t, hrun, hidle, hdone, hop⟩ := hinv.exists_ticks_done (busy_accept i _)
  obtain ⟨t1, hrun1, hlock1⟩ := (Lockstep.of_accept hops1).ticks hinv hrun
  obtain ⟨t2, hrun2, hlock2⟩ := (Lockstep.of_accept hops2).ticks hinv hrun
  obtain rfl : s1.accept i = u1 := by simpa [exec_of_accepted hidle1 haccepted] using hexec
  refine ⟨s2.accept i, k, t1, t2, exec_of_accepted hidle2 (accepted_of_sameOperands hsame haccepted), hrun1, hrun2,
    hlock1.done ▸ hdone, hlock2.done ▸ hdone, ?_⟩
  exact sameResults_of_common hlock1.n (hlock1.sameResults hidle hop) (hlock2.sameResults hidle hop)

end Sys2Proof.Machine
end

section
/-! SUPPORT. The host register space (20_memory.md R50 to R55): what each word index reads as, and what a host write to it
does. -/

namespace Sys2Proof.Machine

section
variable (s : State)

/-! ## The registers as a list -/

/-- The registers behind the words 0x002 to 0x00D, in the order of their words (20_memory.md R51). -/
def State.dataRegs : List Word :=
  [s.n, s.a, s.d, s.s, s.r, s.x, s.y, s.base, s.exp, s.cnt, s.row.setWidth 64, s.wi.setWidth 64]

theorem dataRegs_length : s.dataRegs.length = 12 := rfl

theorem dataWord_eq (addr : WordIndex) :
    s.dataWord addr = if 2 ≤ addr.toNat then s.dataRegs[addr.toNat - 2]? else none := by
  unfold State.dataWord
  generalize addr.toNat = i
  match i with
  | 0 | 1 | 2 | 3 | 4 | 5 | 6 | 7 | 8 | 9 | 10 | 11 | 12 | 13 => rfl
  | i + 14 => simp [State.dataRegs]

theorem dataWord_eq_none {addr : WordIndex} (h : addr.toNat < 0x002 ∨ 0x00D < addr.toNat) : s.dataWord addr = none := by
  rw [dataWord_eq]
  split
  · exact List.getElem?_eq_none (by rw [dataRegs_length]; omega)
  · rfl

theorem exists_dataWord {addr : WordIndex} (hlo : 0x002 ≤ addr.toNat) (hhi : addr.toNat ≤ 0x00D) :
    ∃ v, s.dataWord addr = some v := by
  rw [dataWord_eq, if_pos hlo]
  exact ⟨_, List.getElem?_eq_getElem (by rw [dataRegs_length]; omega)⟩

variable {s} in
theorem bounds_of_dataWord {addr : WordIndex} {v : Word} (h : s.dataWord addr = some v) :
    0x002 ≤ addr.toNat ∧ addr.toNat ≤ 0x00D := by
  by_contra hout
  rw [dataWord_eq_none s (by omega)] at h
  cases h

/-- A host store to an operand word replaces that register in the list and no other. -/
theorem dataRegs_storeWord {addr : WordIndex} (w : Word) (hlo : 0x002 ≤ addr.toNat) (hhi : addr.toNat ≤ 0x005) :
    (s.storeWord addr w).dataRegs = s.dataRegs.set (addr.toNat - 2) w := by
  obtain ⟨rfl, heq⟩ | ⟨rfl, heq⟩ | ⟨rfl, heq⟩ | ⟨rfl, heq⟩ | ⟨hout, -⟩ := storeWord_cases s addr w
  case inr.inr.inr.inr => omega
  all_goals rw [heq]; rfl

/-! ## The ROM windows -/

theorem romWindow_bound {r : Nat} (hr : r ≤ 10) : romWindow (BitVec.ofNat 9 (0x040 + r)) = romBound r := by
  have haddr : (BitVec.ofNat 9 (0x040 + r)).toNat = 0x040 + r := Nat.mod_eq_of_lt (by omega)
  rw [romWindow, haddr, if_pos (by omega), Nat.add_sub_cancel_left]

theorem romWindow_count {r : Nat} (hr : r ≤ 11) :
    romWindow (BitVec.ofNat 9 (0x050 + r)) = (romCount r).map (BitVec.ofNat 64) := by
  have haddr : (BitVec.ofNat 9 (0x050 + r)).toNat = 0x050 + r := Nat.mod_eq_of_lt (by omega)
  rw [romWindow, haddr, if_neg (by omega), if_pos (by omega), Nat.add_sub_cancel_left]

theorem romWindow_witness {r k : Nat} (hr : r ≤ 11) (hk : k ≤ 15) :
    romWindow (BitVec.ofNat 9 (0x100 + 16 * r + k)) = some ((romWit r k).getD 0) := by
  have haddr : (BitVec.ofNat 9 (0x100 + 16 * r + k)).toNat = 0x100 + 16 * r + k := Nat.mod_eq_of_lt (by omega)
  have hrow : (0x100 + 16 * r + k - 0x100) / 16 = r := by omega
  have hslot : (0x100 + 16 * r + k - 0x100) % 16 = k := by omega
  rw [romWindow, haddr, if_neg (by omega), if_neg (by omega), if_pos (by omega), hrow, hslot]

/-- Outside the ROM windows (20_memory.md R52). -/
def outsideRom (addr : WordIndex) : Prop :=
  addr.toNat < 0x040 ∨ (0x04B ≤ addr.toNat ∧ addr.toNat < 0x050) ∨ (0x05C ≤ addr.toNat ∧ addr.toNat < 0x100) ∨
    0x1C0 ≤ addr.toNat

theorem romWindow_eq_none {addr : WordIndex} (h : outsideRom addr) : romWindow addr = none := by
  unfold outsideRom at h
  rw [romWindow, if_neg (by omega), if_neg (by omega), if_neg (by omega)]

/-! ## What each word reads as -/

theorem hostWord_status : s.hostWord 0x001 = some s.statusWord := rfl

theorem hostWord_of_romWindow {addr : WordIndex} {c : Word} (h : romWindow addr = some c) : s.hostWord addr = some c := by
  have hne : addr ≠ 0x001 := by
    rintro rfl
    cases h
  rw [State.hostWord, if_neg hne, h]

variable {s} in
/-- A data register's word: the register, or no stated value while busy (20_memory.md R54 cases (d), (e)). -/
theorem hostWord_of_dataWord {addr : WordIndex} {v : Word} (h : s.dataWord addr = some v) :
    s.hostWord addr = if s.busy then none else some v := by
  obtain ⟨hlo, hhi⟩ := bounds_of_dataWord h
  have hne : addr ≠ 0x001 := by
    rintro rfl
    exact absurd hlo (by decide)
  rw [State.hostWord, if_neg hne, romWindow_eq_none (Or.inl (by omega)), h]

/-- `CMD` and the reserved words read 0 (20_memory.md R53, R54 cases (a), (c)). -/
theorem hostWord_of_no_register {addr : WordIndex} (hne : addr ≠ 0x001) (hrom : outsideRom addr)
    (h : s.dataWord addr = none) : s.hostWord addr = some 0 := by
  rw [State.hostWord, if_neg hne, romWindow_eq_none hrom, h]

variable {s} in
theorem hostWord_congr {t : State} {addr : WordIndex} (hstatus : s.statusWord = t.statusWord) (hbusy : s.busy = t.busy)
    (hdata : s.dataWord addr = t.dataWord addr) : s.hostWord addr = t.hostWord addr := by
  rw [State.hostWord, State.hostWord, hstatus, hbusy, hdata]

/-! ## Reads -/

variable {s} in
theorem hostRead_of_hostWord {addr : WordIndex} {v : Word} (h : s.hostWord addr = some v) :
    hostRead addr s = { s with reads := v :: s.reads } := by
  rw [hostRead, h]

/-! ## Writes -/

variable {s} in
theorem hostWrite_of_idle {addr : WordIndex} (v : Word) (hst : s.st = .idle) (hne : addr ≠ 0x000) :
    hostWrite addr v s = .next (s.storeWord addr v) := by
  rw [hostWrite_eq, whenIdle_of_idle _ hst, if_neg hne]

theorem storeWord_of_readOnly {addr : WordIndex} (w : Word) (h : addr.toNat < 0x002 ∨ 0x005 < addr.toNat) :
    s.storeWord addr w = s := by
  obtain ⟨rfl, -⟩ | ⟨rfl, -⟩ | ⟨rfl, -⟩ | ⟨rfl, -⟩ | ⟨-, heq⟩ := storeWord_cases s addr w
  case inr.inr.inr.inr => exact heq
  all_goals exact absurd h (by decide)

@[simp] theorem storeWord_busy (addr : WordIndex) (w : Word) : (s.storeWord addr w).busy = s.busy := by
  rw [State.busy, State.busy, storeWord_st]

@[simp] theorem storeWord_statusWord (addr : WordIndex) (w : Word) : (s.storeWord addr w).statusWord = s.statusWord := by
  simp [State.statusWord]

end

/-- Settles O39: each window reads its constant, and a word with neither a window nor a register reads 0 and ignores a
write. -/
theorem readsValidAtAnyTime : Obligations.ReadsValidAtAnyTime := by
  intro s
  refine ⟨hostRead_of_hostWord (hostWord_of_no_register s (by decide) (.inl (by decide))
      (dataWord_eq_none s (.inl (by decide)))), hostRead_of_hostWord (hostWord_status s),
    fun r b hr hb => ?_, fun r c hr hc => ?_, fun r k hr hk => ?_, fun addr hreserved => ?_⟩
  · exact hostRead_of_hostWord (hostWord_of_romWindow s ((romWindow_bound hr).trans hb))
  · exact hostRead_of_hostWord (hostWord_of_romWindow s ((romWindow_count hr).trans (by rw [hc]; rfl)))
  · exact hostRead_of_hostWord (hostWord_of_romWindow s ((romWindow_witness hr hk).trans (by cases romWit r k <;> rfl)))
  · have hrom : outsideRom addr := by unfold outsideRom; omega
    have hne (w : WordIndex) (hw : w.toNat < 0x00E) : addr ≠ w := by
      rintro rfl
      omega
    refine ⟨hostRead_of_hostWord (hostWord_of_no_register s (hne 0x001 (by decide)) hrom
      (dataWord_eq_none s (by omega))), fun v hst => ?_⟩
    rw [hostWrite_of_idle v hst (hne 0x000 (by decide)), storeWord_of_readOnly s v (by omega)]

/-- Settles O35: a `Tick` does nothing in `IDLE`, and there a data register's word is the register. -/
theorem completedResultsAreStable : Obligations.CompletedResultsAreStable := by
  intro s hst
  have htick : tick s = .next s := by rw [tick, hst]
  refine ⟨fun k => ?_, fun addr v hdata => hostRead_of_hostWord ?_⟩
  · induction k with
    | zero => rfl
    | succ k ih => rw [ticks_succ_of_tick k htick, ih]
  · rw [hostWord_of_dataWord hdata, (busy_eq_false_iff s).2 (.inl hst)]
    rfl

/-- Settles O40: the words 0x002 to 0x00D are the data registers in order, and a busy block gives their reads a draw. -/
theorem dataRegisterReads : Obligations.DataRegisterReads := by
  intro s
  refine ⟨fun hbusy k v hv => ?_, fun hbusy addr hlo hhi => ?_⟩
  · simp only [BitVec.ofNat_toNat] at hv
    have hreg : s.dataRegs[k]? = some v := hv
    obtain ⟨hk, -⟩ := List.getElem?_eq_some_iff.1 hreg
    rw [dataRegs_length] at hk
    have haddr : (BitVec.ofNat 9 (0x002 + k)).toNat = 0x002 + k := Nat.mod_eq_of_lt (by omega)
    have hdata : s.dataWord (BitVec.ofNat 9 (0x002 + k)) = some v := by
      rw [dataWord_eq, haddr, if_pos (by omega), Nat.add_sub_cancel_left, hreg]
    exact hostRead_of_hostWord (by rw [hostWord_of_dataWord hdata, hbusy]; rfl)
  · obtain ⟨v, hdata⟩ := exists_dataWord s hlo hhi
    have hword := hostWord_of_dataWord hdata
    rw [hbusy] at hword
    exact ⟨Config.busyRead s.draws, by rw [hostRead, hword]; rfl⟩

/-- Settles O41: the gate of a host write decides in `FAULT` and while busy; when idle the write is a register store. -/
theorem hostWriteCases : Obligations.HostWriteCases := by
  intro s addr v
  refine ⟨fun hst => ?_, fun hbusy => ?_, fun hst => ?_⟩
  · rw [hostWrite_eq, whenIdle_of_fault _ hst]
  · rw [hostWrite_eq, whenIdle_of_busy _ hbusy]
  · have hstore (word : WordIndex) (hne : word ≠ 0x000) :
        addr = word → hostWrite addr v s = .next (s.storeWord word v) := by
      rintro rfl
      exact hostWrite_of_idle v hst hne
    refine ⟨hstore 0x002 (by decide), hstore 0x003 (by decide), hstore 0x004 (by decide), hstore 0x005 (by decide),
      fun hword => ?_⟩
    obtain ⟨hpos, hreadOnly⟩ : 0 < addr.toNat ∧ (addr.toNat < 0x002 ∨ 0x005 < addr.toNat) := by
      obtain rfl | hword := hword
      · decide
      · omega
    rw [hostWrite_of_idle v hst (ne_zero_of_toNat_pos hpos), storeWord_of_readOnly s v hreadOnly]

/-- Settles O42: the store replaces one entry of the list of registers, and leaves `STATUS` and `BUSY`. -/
theorem operandWritesReadBack : Obligations.OperandWritesReadBack := by
  intro s addr v hst hlo hhi
  have hregs := dataRegs_storeWord s v hlo hhi
  refine ⟨s.storeWord addr v, hostWrite_of_idle v hst (ne_zero_of_toNat_pos (by omega)), hostRead_of_hostWord ?_,
    fun other hne => hostWord_congr (by simp) (by simp) ?_⟩
  · have hdata : (s.storeWord addr v).dataWord addr = some v := by
      rw [dataWord_eq, if_pos hlo, hregs]
      exact List.getElem?_set_self (by rw [dataRegs_length]; omega)
    rw [hostWord_of_dataWord hdata, storeWord_busy, (busy_eq_false_iff s).2 (.inl hst)]
    rfl
  · have hne : other.toNat ≠ addr.toNat := fun h => hne (BitVec.eq_of_toNat_eq h)
    rw [dataWord_eq, dataWord_eq, hregs]
    split
    · exact List.getElem?_set_ne (by omega)
    · rfl

end Sys2Proof.Machine
end

section
/-! SUPPORT. The command words (30_encoding.md R80 to R83), the controller codes (R85), and what a write to `CMD` and a `WAIT`
do in a step (R88, R90). -/

namespace Sys2Proof

/-! ## The two fields of a command word -/

theorem zeroField_append_opcodeField (w : Word) : zeroField w ++ opcodeField w = w := by
  refine BitVec.eq_of_getLsbD_eq fun i hi => ?_
  simp only [zeroField, opcodeField, BitVec.getLsbD_append, BitVec.getLsbD_extractLsb']
  split
  · next h => simp [h]
  · next h => simp [show i - 3 < 61 by omega, show 3 + (i - 3) = i by omega]

@[simp] theorem zeroField_encode (i : Instr) : zeroField (encode i) = 0 := by
  cases i <;> rfl

@[simp] theorem opcodeField_encode (i : Instr) : opcodeField (encode i) = i.opcode := by
  cases i <;> rfl

theorem instrOfOpcode_eq_some_iff {op : Opcode} {i : Instr} : instrOfOpcode op = some i ↔ op = i.opcode := by
  cases i <;> revert op <;> decide

/-- The two opcodes that are no command (30_encoding.md R81). -/
theorem instrOfOpcode_eq_none_iff {op : Opcode} : instrOfOpcode op = none ↔ op = 0 ∨ op = 7 := by
  revert op
  decide

/-! ## Decoding -/

/-- The decoder is the inverse of the encoder (30_encoding.md R80, R81). -/
theorem decode_eq_some_iff {w : Word} {i : Instr} : decode w = some i ↔ w = encode i := by
  constructor
  · intro h
    unfold decode at h
    split at h
    · next hzero =>
      rw [← zeroField_append_opcodeField w, hzero, instrOfOpcode_eq_some_iff.1 h]
      rfl
    · cases h
  · rintro rfl
    rw [decode, if_pos (zeroField_encode i), opcodeField_encode]
    exact instrOfOpcode_eq_some_iff.2 rfl

@[simp] theorem decode_encode (i : Instr) : decode (encode i) = some i := decode_eq_some_iff.2 rfl

/-- The illegal words (30_encoding.md R83). -/
theorem decode_eq_none_iff {w : Word} : decode w = none ↔ zeroField w ≠ 0 ∨ opcodeField w = 0 ∨ opcodeField w = 7 := by
  unfold decode
  split
  · next hzero => simp [hzero, instrOfOpcode_eq_none_iff]
  · next hzero => exact iff_of_true rfl (.inl hzero)

theorem mem_all (i : Instr) : i ∈ Instr.all := by
  cases i <;> decide

theorem decode_ne_none_iff {w : Word} : decode w ≠ none ↔ w ∈ Instr.all.map encode := by
  simp only [Option.ne_none_iff_exists', decode_eq_some_iff, List.mem_map, mem_all, true_and, eq_comm (a := w)]

/-- Settles O2: a word is its two fields, and each opcode is one command's. -/
theorem decodeInvertsEncodeBothWays : Obligations.DecodeInvertsEncodeBothWays :=
  fun i _ => ⟨decode_encode i, fun _ => decode_eq_some_iff.1⟩

/-- Settles O1: the six words are the encodings of the six commands, and the other two opcodes are illegal. -/
theorem tableWordsDecodeToTheirCommands : Obligations.TableWordsDecodeToTheirCommands :=
  ⟨decode_encode .mulmod, decode_encode .modexp, decode_encode .wtest, decode_encode .decomp, decode_encode .wsel,
    decode_encode .isprime, decode_eq_none_iff.2 (.inr (.inl rfl)), decode_eq_none_iff.2 (.inr (.inr rfl))⟩

end Sys2Proof

namespace Sys2Proof.Machine

/-! ## A write to `CMD` -/

section
variable {s : State}

theorem hostWrite_illegal (hst : s.st = .idle) {w : Word} (hw : decode w = none) :
    hostWrite 0x000 w s = .next (s.raiseFault illegalCmd) := by
  rw [hostWrite_eq, whenIdle_of_idle _ hst, if_pos rfl, hw]

theorem hostWrite_command (hst : s.st = .idle) (i : Instr) : hostWrite 0x000 (encode i) s = .next (issued i s) := by
  rw [hostWrite_eq, whenIdle_of_idle _ hst, if_pos rfl, decode_encode]

end

/-- Settles O3: a word is legal exactly when it is some command's encoding. -/
theorem illegalWordsFaultAndSixAreLegal : Obligations.IllegalWordsFaultAndSixAreLegal :=
  ⟨fun _ => decode_eq_none_iff, fun _ => decode_ne_none_iff, fun _ _ hst hw => hostWrite_illegal hst hw⟩

/-- Settles O4: the numbering of the constructors, whose last stands for every larger number, undoes the code. -/
theorem controllerStateCodesAreDistinct : Obligations.ControllerStateCodesAreDistinct := by
  have hundo : Function.LeftInverse (fun code : BitVec 5 => Ctl.ofNat code.toNat) Ctl.code := fun c => by
    cases c <;> rfl
  exact fun _ _ h => hundo.injective h

/-- Settles O6: an illegal word faults; a legal one is a command's encoding, whose checks are `issued`. -/
theorem acceptanceChecksInOrder : Obligations.AcceptanceChecksInOrder := by
  intro s w
  refine ⟨fun hst => ?_, fun hst => ?_⟩
  · rw [hostWrite_eq]
    obtain ⟨hidle, -⟩ | ⟨hfault, heq⟩ | ⟨hbusy, heq⟩ := whenIdle_cases s _
    · exact absurd hidle hst
    · rw [heq, if_pos hfault]
    · rw [heq, if_neg ((busy_iff s).1 hbusy).2]
  · have hzero : w.extractLsb 63 3 = zeroField w := rfl
    have hop : w.extractLsb 2 0 = opcodeField w := rfl
    rw [hzero, hop]
    cases hw : decode w with
    | none => rw [hostWrite_illegal hst hw, if_pos (decode_eq_none_iff.1 hw)]; rfl
    | some i =>
      have hlegal : ¬ (zeroField w ≠ 0 ∨ opcodeField w = 0 ∨ opcodeField w = 7) := by
        rw [← decode_eq_none_iff, hw]
        nofun
      rw [if_neg hlegal]
      obtain rfl := decode_eq_some_iff.1 hw
      rw [hostWrite_command hst, opcodeField_encode]
      cases i <;> simp only [issued, Instr.opcode, State.raiseFault, State.accept, entryState]
      case mulmod | modexp => by_cases hn : s.n = 0 <;> simp [hn, zeroModulus]
      case wtest => by_cases hn : s.n = 0 <;> by_cases hS : s.s = 0 <;> simp [hn, hS, zeroModulus, zeroS]
      case decomp =>
        have hdomain : decompInDomain s.n = true ↔ ¬ (s.n.toNat < 3 ∨ s.n.toNat % 2 = 0) := by
          rw [decompInDomain_iff]
          omega
        by_cases hn : s.n.toNat < 3 ∨ s.n.toNat % 2 = 0 <;> simp [hdomain, hn, decompDomain]
      case wsel | isprime => simp

/-! ## One event -/

section
variable {s : State}

theorem step_of_pending {e : Event} {rest : List Event} (h : s.pending = e :: rest) :
    step s = runEvent e { s with pending := rest } := by
  rw [step, stepEvent, h]

theorem step_command_eq_exec {i : Instr} {rest : List Event} {w : Word} (h : s.pending = .write 0x000 w :: rest)
    (hw : decode w = some i) : step s = exec i { s with pending := rest } := by
  obtain rfl := decode_eq_some_iff.1 hw
  rw [step_of_pending h, runEvent, hostWrite_eq, exec_eq, if_pos rfl, hw]

theorem statusWord_bit_zero : s.statusWord.getLsbD 0 = s.busy := statusWord_getLsbD s 0

theorem step_wait_of_busy {rest : List Event} (h : s.pending = .wait :: rest) (hbusy : s.busy = true) :
    step s = tick s := by
  have hstatus : State.busy { s with pending := rest } = true := hbusy
  rw [step_of_pending h, runEvent, statusWord_bit_zero, if_pos hstatus, ← h]

theorem step_wait_of_not_busy {rest : List Event} (h : s.pending = .wait :: rest) (hbusy : s.busy = false) :
    step s = .next { s with pending := rest } := by
  have hstatus : State.busy { s with pending := rest } = false := hbusy
  rw [step_of_pending h, runEvent, statusWord_bit_zero, hstatus]
  rfl

end

/-- Settles O5: taking the event off the list changes nothing that `exec` or the gate of a host write reads. -/
theorem stepRunsTheDecodedCommand : Obligations.StepRunsTheDecodedCommand := by
  refine ⟨fun s w rest i hpending hw => step_command_eq_exec hpending hw, fun s i => ?_⟩
  have hword : BitVec.ofNat 64 ((encode i).toNat % 2 ^ 64) = encode i := by
    rw [Nat.mod_eq_of_lt (encode i).isLt, BitVec.ofNat_toNat, BitVec.setWidth_eq]
  rw [State.withFetchWord, hword]
  exact step_command_eq_exec rfl (decode_encode i)

/-- Settles O44: bit 0 of `STATUS` is `BUSY`. -/
theorem waitPollsStatus : Obligations.WaitPollsStatus :=
  fun _ _ hpending => ⟨step_wait_of_not_busy hpending, step_wait_of_busy hpending⟩

end Sys2Proof.Machine
end

section
/-! SUPPORT. Runs of whole events: what each host transaction does to an idle block, and a `WAIT` as the run of `Tick`s it lets
pass (30_encoding.md R88). -/

namespace Sys2Proof.Machine

/-! ## Runs -/

/-- Some number of steps leads from one state to the other. -/
def Reaches (s t : State) : Prop := ∃ k, core.run k s = .next t

section
variable {s t u : State}

theorem run_succ_of_step (k : Nat) (h : step s = .next t) : core.run (k + 1) s = core.run k t := by
  have hrun := Host.Core.run.eq_2 core s k
  have hcore : core.step s = .next t := h
  rwa [hcore] at hrun

theorem Reaches.refl (s : State) : Reaches s s := ⟨0, rfl⟩

theorem Reaches.trans (h : Reaches s t) (h' : Reaches t u) : Reaches s u := by
  obtain ⟨j, hj⟩ := h
  induction j generalizing s with
  | zero => cases hj; exact h'
  | succ j ih =>
    obtain ⟨w, hw, hrest⟩ := run_succ_next hj
    obtain ⟨k, hk⟩ := ih hrest
    exact ⟨k + 1, by rw [run_succ_of_step k hw, hk]⟩

theorem Reaches.head (h : step s = .next t) : Reaches t u → Reaches s u := fun ⟨k, hk⟩ =>
  ⟨k + 1, by rw [run_succ_of_step k h, hk]⟩

/-- A predicate that every `Tick` keeps holds wherever a run of `Tick`s arrives. -/
theorem ticks_next_of_tick {P : State → Prop} (htick : ∀ s t, P s → tick s = .next t → P t) {k : Nat} (hs : P s)
    (hrun : ticks k s = .next t) : P t := by
  induction k generalizing s with
  | zero => cases hrun; exact hs
  | succ k ih =>
    obtain ⟨u, hu, hrest⟩ := ticks_succ_next hrun
    exact ih (htick s u hs hu) hrest

/-! ## Host transactions on an idle block -/

theorem step_read {addr : WordIndex} {rest : List Event} (h : s.pending = .read addr :: rest) :
    step s = .next (hostRead addr { s with pending := rest }) := step_of_pending h

/-- Register writes of a script, in order (30_encoding.md R88). -/
def State.stores (s : State) : List (RegName × Nat) → State
  | [] => s
  | (reg, value) :: more => (s.storeWord reg.index (BitVec.ofNat 64 value)).stores more

theorem stores_st (s : State) (writes : List (RegName × Nat)) : (s.stores writes).st = s.st := by
  induction writes generalizing s with
  | nil => rfl
  | cons write more ih => rw [State.stores, ih, storeWord_st]

theorem storeWord_withPending (s : State) (events : List Event) (addr : WordIndex) (v : Word) :
    { s with pending := events }.storeWord addr v = { s.storeWord addr v with pending := events } := by
  unfold State.storeWord
  split <;> rfl

theorem step_writeOf {reg : RegName} {value : Nat} {rest : List Event} (hst : s.st = .idle) (hne : reg.index ≠ 0x000) :
    step { s with pending := writeOf reg value :: rest } =
      .next { s.storeWord reg.index (BitVec.ofNat 64 value) with pending := rest } := by
  rw [step_of_pending rfl, ← storeWord_withPending]
  exact hostWrite_of_idle _ hst hne

theorem reaches_of_writes {writes : List (RegName × Nat)} {rest : List Event} (hst : s.st = .idle)
    (hne : ∀ write ∈ writes, write.1.index ≠ 0x000) :
    Reaches { s with pending := writes.map (fun write => writeOf write.1 write.2) ++ rest }
      { s.stores writes with pending := rest } := by
  induction writes generalizing s with
  | nil => exact .refl _
  | cons write more ih =>
    obtain ⟨hwrite, hmore⟩ := List.forall_mem_cons.1 hne
    exact .head (step_writeOf hst hwrite) (ih ((storeWord_st ..).trans hst) hmore)

/-- The checks of acceptance read no event still to come. -/
theorem accepted_withPending {i : Instr} (hi : accepted i s) (events : List Event) :
    accepted i { s with pending := events } := by
  cases i <;> exact hi

theorem step_commandOf {i : Instr} {rest : List Event} (hst : s.st = .idle) (hi : accepted i s) :
    step { s with pending := commandOf i :: rest } = .next ({ s with pending := rest }.accept i) := by
  rw [step_command_eq_exec rfl (decode_encode i)]
  exact exec_of_accepted hst (accepted_withPending hi rest)

/-! ## `WAIT` -/

theorem tick_of_not_busy (hbusy : s.busy = false) : tick s = .next s := by
  obtain hst | hst := (busy_eq_false_iff s).1 hbusy
  · exact (Transition.idle hst).tick_eq
  · exact (Transition.fault hst).tick_eq

/-- A `WAIT` is over when the `Tick`s it lets pass have brought the block to rest. -/
theorem reaches_of_wait {k : Nat} {rest : List Event} (hpending : s.pending = .wait :: rest) (hrun : ticks k s = .next t)
    (hend : t.busy = false) : Reaches s { t with pending := rest } := by
  induction k generalizing s with
  | zero =>
    cases hrun
    exact .head (step_wait_of_not_busy hpending hend) (.refl _)
  | succ k ih =>
    obtain ⟨u, hu, hrest⟩ := ticks_succ_next hrun
    obtain ⟨-, -, -, -, hpending', -⟩ := tickWritesOnlyTheNamedRegisters s u hu
    have hreach := ih (hpending'.trans hpending) hrest
    cases hbusy : s.busy with
    | true => exact .head ((step_wait_of_busy hpending hbusy).trans hu) hreach
    | false =>
      obtain rfl : s = u := by simpa [tick_of_not_busy hbusy] using hu
      exact hreach

/-! ## A command from acceptance to completion -/

/-- An accepted command completes, whatever the registers hold that are not its operands: its run goes in lockstep with the run
from the reset state with the same operands. -/
theorem accepted.exists_ticks_done {i : Instr} (hi : accepted i s) :
    ∃ k t, ticks k (s.accept i) = .next t ∧ t.st = .idle ∧ t.done = true := by
  have hops := sameOperands_operandsOnly i s
  have hinv := (inv_operandsOnly s).accept rfl (accepted_of_sameOperands (sameOperands_symm hops) hi)
  obtain ⟨k, t, hrun, hidle, hdone, -⟩ := hinv.exists_ticks_done (busy_accept i _)
  obtain ⟨t', hrun', hlock⟩ := (Lockstep.of_accept hops).ticks hinv hrun
  exact ⟨k, t', hrun', hlock.st ▸ hidle, hlock.done ▸ hdone⟩

theorem opOk_accept (i : Instr) (s : State) : (s.accept i).opOk := by
  cases i <;> simp [State.opOk, Instr.opcode, entryState, Ctl.opcodes]

/-- A pseudo-command (30_encoding.md R89): its register writes, its command word and a `WAIT` take an idle block to the
completion of the command, where everything holds that acceptance establishes and every `Tick` keeps. -/
theorem reaches_of_pseudoCommand {i : Instr} {writes : List (RegName × Nat)} {rest : List Event} {P : State → Prop}
    (hst : s.st = .idle) (hne : ∀ write ∈ writes, write.1.index ≠ 0x000) (hi : accepted i (s.stores writes))
    (hstart : P ({ s.stores writes with pending := .wait :: rest }.accept i))
    (htick : ∀ u w, P u → tick u = .next w → P w) :
    ∃ t, Reaches { s with pending := writes.map (fun write => writeOf write.1 write.2) ++ commandOf i :: .wait :: rest }
        { t with pending := rest } ∧ t.st = .idle ∧ t.done = true ∧ P t := by
  have hidle : (s.stores writes).st = .idle := (stores_st s writes).trans hst
  obtain ⟨k, t, hrun, hend, hdone⟩ := (accepted_withPending hi (.wait :: rest)).exists_ticks_done
  have hwait := reaches_of_wait (rest := rest) rfl hrun ((busy_eq_false_iff t).2 (.inl hend))
  exact ⟨t, (reaches_of_writes hst hne).trans (.head (step_commandOf hidle hi) hwait), hend, hdone,
    ticks_next_of_tick htick hstart hrun⟩

end

end Sys2Proof.Machine
end

section
/-! SUPPORT. The engine (41_modexp.md section 3): the power it is computing, which no transition changes, and the loop of R112 as
that power. -/

namespace Sys2Proof.Machine

theorem mulRem_lt (a b : Word) {m : Word} (hm : m ≠ 0) : (mulRem a b m).toNat < m.toNat := by
  rw [mulRem_toNat _ _ hm]
  exact Nat.mod_lt _ (word_pos hm)

theorem oneRem_lt {m : Word} (hm : m ≠ 0) : (oneRem m).toNat < m.toNat := by
  rw [oneRem_toNat hm]
  exact Nat.mod_lt _ (word_pos hm)

/-! ## Square and multiply -/

/-- With no exponent left the running result is the power (41_modexp.md R112). -/
theorem mul_pow_zero_mod {r m : Nat} (b : Nat) {e : Word} (hr : r < m) (he : e = 0) : r * b ^ e.toNat % m = r := by
  simp [he, Nat.mod_eq_of_lt hr]

/-- Squaring the base halves an even exponent (41_modexp.md R112). -/
theorem mul_sq_pow_mod (r b e m : Nat) : r * (b * b % m) ^ (e / 2) % m = r * b ^ (2 * (e / 2)) % m := by
  rw [Nat.mul_mod, ← Nat.pow_mod, ← Nat.mul_mod, ← pow_two, pow_mul]

/-- Folding the base into the result takes 1 off an odd exponent (41_modexp.md R112). -/
theorem fold_pow_of_odd (r b : Nat) {e : Nat} (hodd : e % 2 = 1) : r * b * b ^ (2 * (e / 2)) = r * b ^ e := by
  rw [Nat.mul_assoc, ← pow_succ', show 2 * (e / 2) + 1 = e by omega]

/-- The loop of 41_modexp.md R112 computes the power, for an exponent of at most `fuel` bits. -/
theorem modexpLoop_toNat {m : Word} (hm : m ≠ 0) {fuel : Nat} {r b e : Word} (hr : r.toNat < m.toNat)
    (he : e.toNat < 2 ^ fuel) : (modexpLoop m fuel r b e).toNat = r.toNat * b.toNat ^ e.toNat % m.toNat := by
  induction fuel generalizing r b e with
  | zero =>
    have h0 : e = 0 := BitVec.eq_of_toNat_eq (Nat.lt_one_iff.1 he)
    rw [modexpLoop, mul_pow_zero_mod _ hr h0]
  | succ fuel ih =>
    rw [modexpLoop]
    by_cases h0 : e = 0
    · rw [if_pos h0, mul_pow_zero_mod _ hr h0]
    · have hhalf : (half e).toNat < 2 ^ fuel := by rw [half_toNat]; omega
      rw [if_neg h0]
      cases hodd : isOdd e with
      | true =>
        rw [if_pos rfl, ih (mulRem_lt r b hm) hhalf, mulRem_toNat _ _ hm, mulRem_toNat _ _ hm, half_toNat, mul_sq_pow_mod,
          Nat.mod_mul_mod, fold_pow_of_odd _ _ ((isOdd_iff e).1 hodd)]
      | false =>
        have heven := (isOdd_false_iff e).1 hodd
        rw [if_neg (by decide), ih hr hhalf, mulRem_toNat _ _ hm, half_toNat, mul_sq_pow_mod,
          show 2 * (e.toNat / 2) = e.toNat by omega]

/-- `modexp` is the power (41_modexp.md R110). -/
theorem modexpRem_toNat (b e : Word) {m : Word} (hm : m ≠ 0) :
    (modexpRem b e m).toNat = b.toNat ^ e.toNat % m.toNat := by
  rw [modexpRem, modexpLoop_toNat hm (oneRem_lt hm) e.isLt, oneRem_toNat hm, Nat.mod_mul_mod, Nat.one_mul]

/-! ## The engine's run -/

section
variable {s t : State}

/-- The power that the engine will have in `R` when it leaves `ME_TEST` with `EXP = 0`; outside the engine, what it has left
there. -/
def State.power (s : State) : Nat :=
  match s.st with
  | .meInit => s.a.toNat ^ s.d.toNat % s.n.toNat
  | .meTest => s.r.toNat * s.base.toNat ^ s.exp.toNat % s.n.toNat
  | .meMul => s.r.toNat * s.base.toNat * s.base.toNat ^ (2 * (s.exp.toNat / 2)) % s.n.toNat
  | .meSqr => s.r.toNat * s.base.toNat ^ (2 * (s.exp.toNat / 2)) % s.n.toNat
  | _ => s.r.toNat

/-- The running result is reduced (41_modexp.md R111, R118). -/
def State.reduced (s : State) : Prop :=
  (s.st = .meTest ∨ s.st = .meMul ∨ s.st = .meSqr) → s.r.toNat < s.n.toNat

theorem Transition.reduced (h : Transition s t) (hs : s.reduced) : t.reduced := by
  unfold State.reduced at hs ⊢
  cases h
  case meInit hn => exact fun _ => oneRem_lt hn
  case meMul hn => exact fun _ => mulRem_lt _ _ hn
  all_goals simp_all

theorem Transition.power_eq (h : Transition s t) (hred : s.reduced) (hengine : s.st.inEngine = true) :
    t.power = s.power := by
  unfold State.reduced at hred
  cases h <;> simp only [‹s.st = _›, Ctl.inEngine, Bool.false_eq_true] at hengine hred
  all_goals simp only [State.power, ‹s.st = _›]
  case meInit hst hn => rw [oneRem_toNat hn, Nat.mod_mul_mod, Nat.one_mul]
  case meTestFinish hexp _ | meTestLoad hexp _ => rw [mul_pow_zero_mod _ (hred (.inl trivial)) hexp]
  case meTestEven heven =>
    have := (isOdd_false_iff s.exp).1 heven
    rw [show 2 * (s.exp.toNat / 2) = s.exp.toNat by omega]
  case meTestOdd hodd => rw [fold_pow_of_odd _ _ ((isOdd_iff s.exp).1 hodd)]
  case meMul hn => rw [mulRem_toNat _ _ hn, Nat.mod_mul_mod]
  case meSqr hn => rw [mulRem_toNat _ _ hn, half_toNat, mul_sq_pow_mod]

end
end Sys2Proof.Machine
end

section
/-! SUPPORT. A script line run as its bus transactions (30_encoding.md R89): MODEXP. -/

namespace Sys2Proof.Machine

theorem events_of_scriptEvents {script : List ScriptLine} {events : List Event}
    (h : scriptEvents script = some events) : events = script.flatMap ScriptLine.expand := by
  unfold scriptEvents at h
  split at h
  · exact (Option.some.inj h).symm
  · cases h

section
variable {s t u : State}

theorem inEngine_of_op_modexp (hop : s.opOk) (h2 : s.op = 2) (hbusy : s.busy = true) : s.st.inEngine = true := by
  obtain ⟨hmem, -⟩ := hop
  obtain ⟨hidle, hfault⟩ := (busy_iff s).1 hbusy
  rw [h2] at hmem
  cases hst : s.st <;> simp_all [Ctl.opcodes, Ctl.inEngine]

/-- What every state of a `MODEXP` run shares with the state `u` it was accepted into. -/
structure ModexpRun (u s : State) : Prop where
  opOk : s.opOk
  op : s.op = 2
  reduced : s.reduced
  power : s.power = u.power
  operands : s.a = u.a ∧ s.d = u.d ∧ s.n = u.n
  v : s.v = u.v

theorem ModexpRun.start (s : State) : ModexpRun (s.accept .modexp) (s.accept .modexp) :=
  ⟨opOk_accept _ s, rfl, by simp [State.reduced, entryState], rfl, ⟨rfl, rfl, rfl⟩, rfl⟩

theorem ModexpRun.tick_next (h : ModexpRun u s) (ht : tick s = .next t) : ModexpRun u t := by
  have htrans := Transition.of_tick ht
  cases hbusy : s.busy with
  | false =>
    obtain rfl : s = t := by simpa [tick_of_not_busy hbusy] using ht
    exact h
  | true =>
    obtain ⟨hopOk, hop, hred, hpower, ⟨ha, hd, hn⟩, hv⟩ := h
    have hengine := inEngine_of_op_modexp hopOk hop hbusy
    have hne (c : Ctl) (hc : c.inEngine = false) : s.st ≠ c := by
      rintro rfl
      simp [hc] at hengine
    obtain ⟨hn', hop', -, -, -, -, -, ha', hd', -, -, -, -, -, -, hv', -⟩ := tickWritesOnlyTheNamedRegisters s t ht
    obtain ⟨hd', -⟩ := hd' (hne .svDec0 rfl) (hne .svDec rfl)
    exact ⟨htrans.opOk hopOk, hop'.trans hop, htrans.reduced hred, (htrans.power_eq hred hengine).trans hpower,
      ⟨(ha' (hne .svWit rfl)).trans ha, hd'.trans hd, hn'.trans hn⟩,
      (hv' (hne .wtChk rfl) (hne .wtFin rfl) (hne .svQuick rfl)).trans hv⟩

end

/-- Settles O49: three stores, the acceptance of `MODEXP`, and a `WAIT` over a run that keeps the power. -/
theorem modexpScriptComputesThePower : Obligations.ModexpScriptComputesThePower := by
  intro s b e m events hst hb he hm hm' hevents
  obtain rfl := events_of_scriptEvents hevents
  have hbase : (BitVec.ofNat 64 b).toNat = b := Nat.mod_eq_of_lt hb
  have hexponent : (BitVec.ofNat 64 e).toNat = e := Nat.mod_eq_of_lt he
  have hmodulus : (BitVec.ofNat 64 m).toNat = m := Nat.mod_eq_of_lt hm'
  have hn : BitVec.ofNat 64 m ≠ 0 := ne_zero_of_toNat_pos (by omega)
  obtain ⟨t, ⟨k, hk⟩, hidle, hdone, hrun⟩ := reaches_of_pseudoCommand (i := .modexp) (rest := [])
    (writes := [(.a, b), (.d, e), (.n, m)]) hst (by simp [RegName.index]) hn (ModexpRun.start _) fun _ _ => ModexpRun.tick_next
  obtain ⟨ha, hd, hn'⟩ := hrun.operands
  have hr : t.r.toNat = b ^ e % m := calc
    t.r.toNat = t.power := by rw [State.power, hidle]
    _ = (BitVec.ofNat 64 b).toNat ^ (BitVec.ofNat 64 e).toNat % (BitVec.ofNat 64 m).toNat := hrun.power
    _ = b ^ e % m := by rw [hbase, hexponent, hmodulus]
  exact ⟨k, _, hk, rfl, hidle, hdone, hr, (congrArg BitVec.toNat ha).trans hbase,
    (congrArg BitVec.toNat hd).trans hexponent, (congrArg BitVec.toNat hn').trans hmodulus, hrun.v⟩

end Sys2Proof.Machine
end

section
/-! SUPPORT. The verdict of a running witness test and of a running `ISPRIME` (42_witness.md R130; 43_sieve.md R150): what it will
leave in `V`, which no transition changes. -/

namespace Sys2Proof.Machine

/-! ## The witness test -/

/-- The last `k` squarings of 42_witness.md R130, from `x`: none meets a nontrivial square root of 1, and the last square
is 1. -/
def squaringsPass (n : Word) : Nat → Word → Bool
  | 0, x => x == 1
  | k + 1, x => !nontrivialRoot n x (mulRem x x n) && squaringsPass n k (mulRem x x n)

theorem wtestLoop_eq_squaringsPass (n : Word) (more : Nat) (x : Word) :
    wtestLoop n more x = squaringsPass n (more + 1) x := by
  induction more generalizing x with
  | zero => rfl
  | succ more ih => rw [wtestLoop, ih]; rfl

/-- The witness test squares the power `S` times (42_witness.md R130). -/
theorem wtestRem_eq_squaringsPass {n s : Word} (d a : Word) (hn : n ≠ 0) (hs : s ≠ 0) :
    wtestRem n s d a = squaringsPass n s.toNat (BitVec.ofNat 64 (a.toNat ^ d.toNat % n.toNat)) := by
  have hpower : modexpRem a d n = BitVec.ofNat 64 (a.toNat ^ d.toNat % n.toNat) := by
    rw [← modexpRem_toNat a d hn, BitVec.ofNat_toNat, BitVec.setWidth_eq]
  have hpos := word_pos hs
  rw [wtestRem, wtestLoop_eq_squaringsPass, hpower, show s.toNat - 1 + 1 = s.toNat by omega]

section
variable {s t : State}

/-- The verdict that the witness test under way will reach, its engine run included; outside it, the one it has left in
`V`. -/
def State.testVerdict (s : State) : Bool :=
  match s.st with
  | .meInit | .meTest | .meMul | .meSqr | .wtLoad => squaringsPass s.n s.s.toNat (BitVec.ofNat 64 s.power)
  | .wtSqr => squaringsPass s.n s.cnt.toNat s.x
  | .wtChk => !nontrivialRoot s.n s.x s.y && squaringsPass s.n (s.cnt.toNat - 1) s.y
  | .wtFin => s.y == 1
  | _ => s.v

theorem Transition.testVerdict_eq (h : Transition s t) (h2 : s.op ≠ 2) (hduty : s.duty) (hred : s.reduced)
    (htest : s.st.inEngine = true ∨ s.st.inWitness = true) : t.testVerdict = s.testVerdict := by
  have hpower := h.power_eq hred
  unfold State.duty at hduty
  cases h <;> simp only [‹s.st = _›, Ctl.inEngine, Ctl.inWitness, Bool.false_eq_true, or_self] at htest hduty hpower
  all_goals simp only [State.testVerdict, ‹s.st = _›]
  case meInit | meTestLoad | meTestOdd | meTestEven | meMul | meSqr => rw [hpower trivial]
  case meTestFinish hop => exact absurd hop h2
  case wtLoad hst => simp [State.power, hst]
  case wtSqr hn =>
    obtain ⟨-, hcnt, -⟩ := hduty
    have := word_pos hcnt
    rw [show s.cnt.toNat = s.cnt.toNat - 1 + 1 by omega]
    rfl
  case wtChkFinish hroot _ | wtChkReturn hroot _ => rw [hroot]; rfl
  case wtChkLast hroot hcnt hlast =>
    have := pred_toNat hcnt
    rw [hroot, ← this, hlast]
    rfl
  case wtChkMore hroot hcnt _ => rw [hroot, pred_toNat hcnt]; rfl
  case wtFinFinish | wtFinReturn => rfl

/-! ## The sieve -/

/-- Every witness of the list passes for `n` with the decomposition `s`, `d` of `n − 1` (43_sieve.md R154). -/
def allPass (n s d : Word) (witnesses : List Word) : Bool := witnesses.all (wtestRem n s d)

theorem isprime_of_quick_some {n : Word} {verdict : Bool} (h : quickVerdict n = some verdict) : isprime n = verdict := by
  rw [isprime, h]

theorem isprime_of_quick_none {n : Word} (h : quickVerdict n = none) :
    isprime n = allPass n (decompOdd n).1 (decompOdd n).2 (romWitnesses (wsel n)) := by
  rw [isprime, h]
  rfl

theorem decompLoop_of_odd {d : Word} (hodd : isOdd d = true) (fuel : Nat) (s : Word) : decompLoop fuel s d = (s, d) := by
  cases fuel with
  | zero => rfl
  | succ fuel => rw [decompLoop, if_pos hodd]

theorem decompLoop_succ_of_even {d : Word} (heven : isOdd d = false) (fuel : Nat) (s : Word) :
    decompLoop (fuel + 1) s d = decompLoop fuel (s + 1) (half d) := by
  rw [decompLoop, heven, if_neg Bool.false_ne_true]

/-- The decomposition that `SV_DEC` is working towards (43_sieve.md R161): `S` has counted the halvings done, and a word has
room for fewer than 64. -/
def State.decompEnd (s : State) : Word × Word := decompLoop (65 - s.s.toNat) s.s s.d

/-- The witnesses of the selected row after the one at `WI` all pass. -/
def State.laterPass (s : State) : Bool := allPass s.n s.s s.d ((romWitnesses s.row.toNat).drop (s.wi.toNat + 1))

/-- The verdict that a running `ISPRIME` will leave in `V`; at rest, the one it has left there. -/
def State.verdict (s : State) : Bool :=
  match s.st with
  | .svQuick | .svDec0 => isprime s.n
  | .svDec => allPass s.n s.decompEnd.1 s.decompEnd.2 (romWitnesses (wsel s.n))
  | .svSel0 | .svScan => allPass s.n s.s s.d (romWitnesses (wsel s.n))
  | .svWit => allPass s.n s.s s.d ((romWitnesses s.row.toNat).drop s.wi.toNat)
  | .meInit | .meTest | .meMul | .meSqr | .wtLoad | .wtSqr | .wtChk | .wtFin | .svNext => s.testVerdict && s.laterPass
  | .idle | .fault | .mmRun => s.v

/-- The witness at `WI` is tried before the later ones. -/
theorem allPass_drop {n s d witness : Word} {r k : Nat} (h : romWit r k = some witness) :
    allPass n s d ((romWitnesses r).drop k) =
      (wtestRem n s d witness && allPass n s d ((romWitnesses r).drop (k + 1))) := by
  obtain ⟨hk, hget⟩ := List.getElem?_eq_some_iff.1 h
  rw [List.drop_eq_getElem_cons hk, hget]
  rfl

theorem laterPass_of_last (h : romCount s.row.toNat = some (s.wi.toNat + 1)) : s.laterPass = true := by
  rw [State.laterPass, List.drop_eq_nil_of_le (romCount_eq_some h).le]
  rfl

theorem Transition.verdict_eq (h : Transition s t) (hop : s.opOk) (h6 : s.op = 6) (hduty : s.duty) (hred : s.reduced) :
    t.verdict = s.verdict := by
  have htest := h.testVerdict_eq (by simp [h6]) hduty hred
  have hdutyT := h.duty hop hduty
  unfold State.duty at hduty
  cases h <;> simp only [‹s.st = _›, Ctl.inEngine, Ctl.inWitness] at htest
  all_goals simp only [‹s.st = _›, h6, true_imp_iff] at hduty
  all_goals simp only [State.verdict, ‹s.st = _›]
  case meTestFinish hop' | wtChkFinish hop' | wtFinFinish hop' | svDecFinish hop' | svScanFinish hop' => simp [h6] at hop'
  case meInit | meTestLoad | meTestOdd | meTestEven | meMul | meSqr => rw [htest (.inl trivial)]; rfl
  case wtLoad | wtSqr | wtChkReturn | wtChkLast | wtChkMore | wtFinReturn => rw [htest (.inr trivial)]; rfl
  case svQuickDecided hquick => exact (isprime_of_quick_some hquick).symm
  case svDec0 => rw [isprime_of_quick_none hduty.2]; rfl
  case svDecSelect hodd _ => rw [State.decompEnd, decompLoop_of_odd hodd]
  case svDecHalve heven hfits =>
    obtain ⟨-, ⟨-, hle, -⟩, -⟩ := hduty
    have hend : s.decompEnd = decompLoop (65 - (s.s + 1).toNat) (s.s + 1) (half s.d) := by
      rw [State.decompEnd, successor_toNat hfits, show 65 - s.s.toNat = 65 - (s.s.toNat + 1) + 1 by omega,
        decompLoop_succ_of_even heven]
    rw [hend]
    rfl
  case svScanWit hrow _ =>
    obtain ⟨hle, hwi, -⟩ := hduty
    rw [hrow.eq_wsel hle, hwi]
    rfl
  case svWit witness hwit =>
    obtain ⟨hn, hs, -⟩ := hdutyT
    rw [allPass_drop hwit, wtestRem_eq_squaringsPass _ _ hn (hs (by simp [h6]))]
    rfl
  case svNextFailed hst hv => simp [State.testVerdict, hst, hv]
  case svNextLast hst hv hcount => simp [State.testVerdict, hst, laterPass_of_last hcount]
  case svNextMore hst hv count hcount hmore hfits =>
    simp only [State.testVerdict, hst, hv, successor_toNat hfits, Bool.true_and]
    rfl

/-- What every state of an `ISPRIME` run shares with the state `u` it was accepted into. -/
structure IsprimeRun (u s : State) : Prop where
  opOk : s.opOk
  op : s.op = 6
  duty : s.duty
  reduced : s.reduced
  verdict : s.verdict = u.verdict
  reads : s.reads = u.reads

theorem IsprimeRun.start (s : State) : IsprimeRun (s.accept .isprime) (s.accept .isprime) :=
  ⟨opOk_accept _ s, rfl, trivial, by simp [State.reduced, entryState], rfl, rfl⟩

theorem IsprimeRun.tick_next {u : State} (h : IsprimeRun u s) (ht : tick s = .next t) : IsprimeRun u t := by
  obtain ⟨hopOk, hop, hduty, hred, hverdict, hreads⟩ := h
  have htrans := Transition.of_tick ht
  obtain ⟨-, hop', -, -, -, hreads', -⟩ := tickWritesOnlyTheNamedRegisters s t ht
  exact ⟨htrans.opOk hopOk, hop'.trans hop, htrans.duty hopOk hduty, htrans.reduced hred,
    (htrans.verdict_eq hopOk hop hduty hred).trans hverdict, hreads'.trans hreads⟩

end

/-- Settles O50: a store, the acceptance of `ISPRIME`, a `WAIT` over a run that keeps the verdict, and a read of `STATUS`. -/
theorem isprimeScriptReadsTheVerdict : Obligations.IsprimeScriptReadsTheVerdict := by
  intro s n events hst _ hevents
  obtain rfl := events_of_scriptEvents hevents
  obtain ⟨t, hreach, hidle, hdone, hrun⟩ := reaches_of_pseudoCommand (i := .isprime) (rest := [.read 0x001])
    (writes := [(.n, n)]) hst (by simp [RegName.index]) trivial (IsprimeRun.start _) fun _ _ => IsprimeRun.tick_next
  have hread := step_read (s := { t with pending := [.read 0x001] }) rfl
  rw [hostRead_of_hostWord (hostWord_status _)] at hread
  obtain ⟨k, hk⟩ := hreach.trans (.head hread (.refl _))
  have hv : t.v = isprime (BitVec.ofNat 64 n) := calc
    t.v = t.verdict := by rw [State.verdict, hidle]
    _ = isprime (BitVec.ofNat 64 n) := hrun.verdict
  have hbusy : t.busy = false := (busy_eq_false_iff t).2 (.inl hidle)
  exact ⟨k, _, _, hk, rfl, congrArg _ hrun.reads, (statusWord_getLsbD _ 0).trans hbusy,
    (statusWord_getLsbD _ 1).trans hdone, (statusWord_getLsbD _ 2).trans hv⟩

end Sys2Proof.Machine
end

section
/-! SUPPORT. The modular product (40_mulmod.md sections 1 and 2): the number that its word stands for, which R107's
properties and the 128-bit form of R101 are read from. -/

namespace Sys2Proof.Machine

section
variable {m p : Word}

/-- The value is the word of the number `a × b mod m` (40_mulmod.md R100). -/
theorem mulmod_eq_some_iff_toNat (a b : Word) (hm : m ≠ 0) :
    mulmod a b m = some p ↔ p.toNat = a.toNat * b.toNat % m.toNat := by
  rw [mulmod_of_ne_zero a b hm, Option.some_inj, ← BitVec.toNat_inj, mulRem_toNat a b hm, eq_comm]

/-- Only the residue of the product matters. -/
theorem mulmod_congr {a b c d : Word} (h : a.toNat * b.toNat % m.toNat = c.toNat * d.toNat % m.toNat) :
    mulmod a b m = mulmod c d m := by
  rw [mulmod, mulmod, mulRem, mulRem, h]

/-- 128 bits hold every product of two words (40_mulmod.md R101). -/
theorem wideProduct_toNat (a b : Word) : (a.setWidth 128 * b.setWidth 128).toNat = a.toNat * b.toNat := by
  have hprod : a.toNat * b.toNat < 2 ^ 64 * 2 ^ 64 := Nat.mul_lt_mul'' a.isLt b.isLt
  rw [BitVec.toNat_mul, BitVec.toNat_setWidth_of_le (by decide), BitVec.toNat_setWidth_of_le (by decide)]
  exact Nat.mod_eq_of_lt hprod

/-- The product reduced in 128 bits and then cut to 64 (40_mulmod.md R101). -/
theorem mulRem_eq_wide (a b : Word) :
    mulRem a b m = ((a.setWidth 128 * b.setWidth 128) % m.setWidth 128).setWidth 64 := by
  rw [mulRem, ← BitVec.ofNat_toNat, BitVec.toNat_umod, wideProduct_toNat, BitVec.toNat_setWidth_of_le (by decide)]

end

/-- Settles O10: the 128-bit product loses nothing, so its remainder is the remainder of the number. -/
theorem mulmodIsTheExactWideRemainder : Obligations.MulmodIsTheExactWideRemainder :=
  ⟨fun a b _ hm => ⟨_, mulmod_of_ne_zero a b hm, mulRem_toNat a b hm, mulRem_eq_wide a b⟩, mulmod_zero⟩

/-- Settles O11: each property is one of the remainder of the product as a number. -/
theorem mulmodLaws : Obligations.MulmodLaws := by
  intro a b m hm
  refine ⟨⟨_, mulmod_of_ne_zero a b hm, mulRem_lt a b hm⟩, ?_, ?_, ?_, ?_, ?_⟩
  · exact (mulmod_eq_some_iff_toNat a b (by decide)).2 (Nat.mod_one _).symm
  · exact mulmod_congr (by rw [Nat.mul_comm])
  · exact (mulmod_eq_some_iff_toNat 0 b hm).2 (by simp)
  · exact (mulmod_eq_some_iff_toNat 1 b hm).2 (by simp)
  · exact mulmod_congr (by rw [BitVec.toNat_umod, BitVec.toNat_umod, ← Nat.mul_mod])

end Sys2Proof.Machine
end

section
/-! SUPPORT. `MULMOD` (40_mulmod.md sections 3 and 4): what issuing it to an idle block does, and the one `Tick` that completes it. -/

namespace Sys2Proof.Machine

section
variable {s : State}

theorem exec_of_idle (i : Instr) (hst : s.st = .idle) : exec i s = .next (issued i s) := by
  rw [exec_eq, whenIdle_of_idle _ hst]

/-- The one `Tick` of an accepted `MULMOD` (40_mulmod.md R105). -/
theorem tick_accept_mulmod (hn : s.n ≠ 0) :
    tick (s.accept .mulmod) = .next { s.accept .mulmod with r := mulRem s.a s.d s.n, done := true, st := .idle } :=
  (Transition.mmRun (s := s.accept .mulmod) rfl hn).tick_eq

end

/-- Settles O12: the check of `N` when the command is issued, then the transition out of `MM_RUN`. -/
theorem mulmodCommandCompletes : Obligations.MulmodCommandCompletes := by
  refine ⟨decode_encode .mulmod, fun s hst => ⟨fun hn => ?_, fun hn => ⟨?_, tick_accept_mulmod hn⟩⟩⟩
  · rw [exec_of_idle _ hst, issued, if_pos hn]
    rfl
  · exact exec_of_accepted hst hn

end Sys2Proof.Machine
end

section
/-! SUPPORT. The engine's `Tick`s and its whole run (41_modexp.md R112 to R121): the loop of R112 round by round, with its count. -/

namespace Sys2Proof.Machine

/-! ## The function and the words the `Tick`s write -/

/-- The loop's answer as the word of the power (41_modexp.md R110). -/
theorem modexpRem_eq_ofNat (b e : Word) {m : Word} (hm : m ≠ 0) :
    modexpRem b e m = BitVec.ofNat 64 (b.toNat ^ e.toNat % m.toNat) := by
  rw [← modexpRem_toNat b e hm, BitVec.ofNat_toNat, BitVec.setWidth_eq]

theorem modexpLoop_exponent_zero (m : Word) (fuel : Nat) (r b : Word) : modexpLoop m fuel r b 0 = r := by
  cases fuel with
  | zero => rfl
  | succ fuel => exact if_pos rfl

/-- `1 mod m` by its two cases (41_modexp.md R116). -/
theorem oneRem_eq_ite {m : Word} (hm : m ≠ 0) : oneRem m = if m = 1 then 0 else 1 := by
  split
  · next h1 => rw [h1]; rfl
  · next h1 =>
    have hne : m.toNat ≠ 1 := fun h => h1 (BitVec.eq_of_toNat_eq h)
    have hpos := word_pos hm
    rw [oneRem, Nat.mod_eq_of_lt (by omega)]
    rfl

theorem half_eq_ofNat (v : Word) : half v = BitVec.ofNat 64 (v.toNat / 2) := by
  rw [← half_toNat, BitVec.ofNat_toNat, BitVec.setWidth_eq]

/-! ## Bit length and set bits -/

/-- Binary digits, lowest first: halving takes the lowest one off. -/
theorem digits_eq_cons_half {e : Word} (he : e ≠ 0) :
    Nat.digits 2 e.toNat = e.toNat % 2 :: Nat.digits 2 (half e).toNat := by
  rw [half_toNat, Nat.digits_def' (by decide) (word_pos he)]

theorem bitLength_eq_half_add_one {e : Word} (he : e ≠ 0) : Claims.bitLength e = Claims.bitLength (half e) + 1 := by
  rw [Claims.bitLength, digits_eq_cons_half he, List.length_cons, Claims.bitLength]

theorem setBits_eq_mod_add_half {e : Word} (he : e ≠ 0) : Claims.setBits e = e.toNat % 2 + Claims.setBits (half e) := by
  rw [Claims.setBits, digits_eq_cons_half he, List.sum_cons, Claims.setBits]

/-- A word has at most 64 binary digits (41_modexp.md R114). -/
theorem bitLength_le (e : Word) : Claims.bitLength e ≤ 64 :=
  (Nat.digits_length_le_iff (by decide) e.toNat).2 e.isLt

theorem setBits_le_bitLength (e : Word) : Claims.setBits e ≤ Claims.bitLength e := by
  have hdigit : ∀ digit ∈ Nat.digits 2 e.toNat, digit ≤ 1 := fun _ h => Nat.le_of_lt_succ (Nat.digits_lt_base (by decide) h)
  simpa [Claims.setBits, Claims.bitLength] using List.sum_le_card_nsmul _ 1 hdigit

/-! ## What is left in `BASE` -/

/-- `BASE` at the end of a run (41_modexp.md R121): squared once for each bit of the exponent, and untouched when it has none. -/
def baseEnd (b e m : Word) : Word :=
  if e = 0 then b else BitVec.ofNat 64 (b.toNat ^ 2 ^ Claims.bitLength e % m.toNat)

/-- For a reduced base the case without bits is no exception. -/
theorem baseEnd_of_lt {b m : Word} (e : Word) (hb : b.toNat < m.toNat) :
    baseEnd b e m = BitVec.ofNat 64 (b.toNat ^ 2 ^ Claims.bitLength e % m.toNat) := by
  by_cases he : e = 0
  · have hlength : Claims.bitLength e = 0 := by rw [he]; rfl
    rw [baseEnd, if_pos he, hlength, pow_zero, pow_one, Nat.mod_eq_of_lt hb, BitVec.ofNat_toNat, BitVec.setWidth_eq]
  · exact if_neg he

/-- One squaring stands for one bit of the exponent. -/
theorem baseEnd_sq_half {b e m : Word} (hm : m ≠ 0) (he : e ≠ 0) :
    baseEnd (mulRem b b m) (half e) m = baseEnd b e m := by
  rw [baseEnd_of_lt _ (mulRem_lt b b hm), baseEnd, if_neg he, mulRem_toNat b b hm, ← Nat.pow_mod,
    bitLength_eq_half_add_one he, pow_succ', pow_mul, pow_two]

/-! ## The run -/

/-- The exit from the engine at `ME_TEST` with `EXP = 0` (41_modexp.md R117), with `R` and `BASE` as a run leaves them. -/
def State.leaveEngine (s : State) (r base : Word) : State :=
  { s with
    r := r, base := base, exp := 0
    st := if s.op = 2 then .idle else .wtLoad
    done := if s.op = 2 then true else s.done }

/-- The block at `ME_TEST` again, one round of the loop later (41_modexp.md R112, R118, R119). -/
def State.nextRound (s : State) : State :=
  { s with
    r := if isOdd s.exp then mulRem s.r s.base s.n else s.r
    base := mulRem s.base s.base s.n, exp := half s.exp, st := .meTest }

section
variable {s : State}

theorem tick_meTest_of_exp_zero (hst : s.st = .meTest) (hexp : s.exp = 0) :
    tick s = .next (s.leaveEngine s.r s.base) := by
  by_cases hop : s.op = 2
  · rw [(Transition.meTestFinish hst hexp hop).tick_eq, State.leaveEngine, if_pos hop, if_pos hop, ← hexp]
  · rw [(Transition.meTestLoad hst hexp hop).tick_eq, State.leaveEngine, if_neg hop, if_neg hop, ← hexp]

/-- A round takes two `Tick`s, and for an odd exponent a third, that of `ME_MUL`. -/
theorem ticks_nextRound (hst : s.st = .meTest) (hn : s.n ≠ 0) (hexp : s.exp ≠ 0) :
    ticks (2 + s.exp.toNat % 2) s = .next s.nextRound := by
  cases hodd : isOdd s.exp with
  | true =>
    have htest := (Transition.meTestOdd hst hexp hodd).tick_eq
    have hmul := (Transition.meMul (s := { s with st := .meMul }) rfl hn).tick_eq
    have hsqr := (Transition.meSqr (s := { s with r := mulRem s.r s.base s.n, st := .meSqr }) rfl hn).tick_eq
    rw [(isOdd_iff _).1 hodd, ticks_succ_of_tick _ htest, ticks_succ_of_tick _ hmul, ticks_succ_of_tick _ hsqr, ticks_zero,
      State.nextRound, if_pos hodd]
  | false =>
    have htest := (Transition.meTestEven hst hexp hodd).tick_eq
    have hsqr := (Transition.meSqr (s := { s with st := .meSqr }) rfl hn).tick_eq
    rw [(isOdd_false_iff _).1 hodd, ticks_succ_of_tick _ htest, ticks_succ_of_tick _ hsqr, ticks_zero,
      State.nextRound, if_neg (Bool.eq_false_iff.1 hodd)]

theorem ticks_of_exp_zero (fuel : Nat) (hst : s.st = .meTest) (hexp : s.exp = 0) :
    ticks (2 * Claims.bitLength s.exp + Claims.setBits s.exp + 1) s =
      .next (s.leaveEngine (modexpLoop s.n fuel s.r s.base s.exp) (baseEnd s.base s.exp s.n)) := by
  have hcount : 2 * Claims.bitLength s.exp + Claims.setBits s.exp + 1 = 1 := by rw [hexp]; rfl
  rw [hcount, ticks_succ_of_tick 0 (tick_meTest_of_exp_zero hst hexp), hexp, modexpLoop_exponent_zero, baseEnd, if_pos rfl,
    ticks_zero]

/-- The engine from `ME_TEST` on runs the loop of 41_modexp.md R112, for an exponent of at most `fuel` bits. -/
theorem ticks_of_meTest {fuel : Nat} (hst : s.st = .meTest) (hn : s.n ≠ 0) (hfuel : s.exp.toNat < 2 ^ fuel) :
    ticks (2 * Claims.bitLength s.exp + Claims.setBits s.exp + 1) s =
      .next (s.leaveEngine (modexpLoop s.n fuel s.r s.base s.exp) (baseEnd s.base s.exp s.n)) := by
  induction fuel generalizing s with
  | zero => exact ticks_of_exp_zero 0 hst (BitVec.eq_of_toNat_eq (Nat.lt_one_iff.1 hfuel))
  | succ fuel ih =>
    by_cases hexp : s.exp = 0
    · exact ticks_of_exp_zero _ hst hexp
    · have hcount : 2 * Claims.bitLength s.exp + Claims.setBits s.exp + 1 =
          2 + s.exp.toNat % 2 + (2 * Claims.bitLength (half s.exp) + Claims.setBits (half s.exp) + 1) := by
        rw [bitLength_eq_half_add_one hexp, setBits_eq_mod_add_half hexp]
        omega
      have hhalf : (half s.exp).toNat < 2 ^ fuel := by rw [half_toNat]; omega
      have hrest := ih (s := s.nextRound) rfl hn hhalf
      rw [hcount, ticks_add _ (ticks_nextRound hst hn hexp), modexpLoop, if_neg hexp, ← baseEnd_sq_half hn hexp]
      exact hrest

/-- The engine from `ME_INIT` on computes `modexp` (41_modexp.md R120, R121). -/
theorem ticks_of_meInit (hst : s.st = .meInit) (hn : s.n ≠ 0) :
    ticks (2 * Claims.bitLength s.d + Claims.setBits s.d + 2) s =
      .next (s.leaveEngine (modexpRem s.a s.d s.n) (baseEnd s.a s.d s.n)) := by
  rw [ticks_succ_of_tick _ (Transition.meInit hst hn).tick_eq]
  exact ticks_of_meTest (s := { s with r := oneRem s.n, base := s.a, exp := s.d, st := .meTest }) rfl hn s.d.isLt

end

/-- Settles O13: by `modexpRem_toNat`, the loop being never cut short by its fuel. -/
theorem modexpIsThePower : Obligations.ModexpIsThePower := by
  intro b e m hm
  rw [modexp, if_neg hm, modexpRem_eq_ofNat b e hm]

/-- Settles O15: the `Tick` of `ME_INIT`, then the loop round by round. -/
theorem engineRunEndState : Obligations.EngineRunEndState := by
  intro s hst hn
  rw [ticks_of_meInit hst hn, modexpRem_eq_ofNat _ _ hn]
  rfl

/-- Settles O16: the check of `N` when the command is issued, then one engine run. -/
theorem modexpCommandCompletes : Obligations.ModexpCommandCompletes := by
  refine ⟨decode_encode .modexp, fun s hst => ⟨fun hn => ?_, fun hn => ⟨exec_of_accepted hst hn, ?_, ?_, ?_⟩⟩⟩
  · rw [exec_of_idle _ hst, issued, if_pos hn]
    rfl
  · exact engineRunEndState { s with op := 2, done := false, st := .meInit } rfl hn
  · exact Nat.le_add_left 2 _
  · have hlength := bitLength_le s.d
    have hset := setBits_le_bitLength s.d
    omega

/-- Settles O14: each is a transition of the controller, with the words it writes as remainders and a quotient of numbers. -/
theorem engineTicks : Obligations.EngineTicks := by
  intro s
  refine ⟨fun hst hn => ?_, fun hst => ?_, fun hst hn => (Transition.meMul hst hn).tick_eq, fun hst hn => ?_⟩
  · rw [← oneRem_eq_ite hn]
    exact (Transition.meInit hst hn).tick_eq
  · by_cases hexp : s.exp = 0
    · rw [if_pos hexp]
      by_cases hop : s.op = 2
      · rw [if_pos hop, (Transition.meTestFinish hst hexp hop).tick_eq]
      · rw [if_neg hop, (Transition.meTestLoad hst hexp hop).tick_eq]
    · rw [if_neg hexp]
      by_cases hodd : s.exp.toNat % 2 = 1
      · rw [if_pos hodd, (Transition.meTestOdd hst hexp ((isOdd_iff _).2 hodd)).tick_eq]
      · rw [if_neg hodd, (Transition.meTestEven hst hexp ((isOdd_false_iff _).2 (by omega))).tick_eq]
  · rw [← half_eq_ofNat]
    exact (Transition.meSqr hst hn).tick_eq

end Sys2Proof.Machine
end

section
/-! SUPPORT. The witness test (42_witness.md R130 to R141): the sequence of squares, the verdict, the `Tick`s, and the whole
run from `WT_LOAD` to its exit. -/

namespace Sys2Proof.Machine

/-! ## The sequence of squares -/

section
variable {n x0 : Word} {i k : Nat}

theorem squares_succ (n x0 : Word) (i : Nat) :
    Claims.squares n x0 (i + 1) = mulRem (Claims.squares n x0 i) (Claims.squares n x0 i) n := rfl

/-- The squares of the first square are the later squares. -/
theorem squares_mulRem (n x0 : Word) (i : Nat) : Claims.squares n (mulRem x0 x0 n) i = Claims.squares n x0 (i + 1) := by
  induction i with
  | zero => rfl
  | succ i ih => rw [squares_succ, ih, ← squares_succ]

theorem earlyAt_mulRem : Claims.earlyAt n (mulRem x0 x0 n) i ↔ Claims.earlyAt n x0 (i + 1) := by
  simp only [Claims.earlyAt, squares_mulRem]

/-- The test of `WT_CHK` on numbers (42_witness.md R136). -/
theorem nontrivialRoot_iff (hn : n ≠ 0) (x y : Word) :
    nontrivialRoot n x y = true ↔ x ≠ 1 ∧ x.toNat ≠ n.toNat - 1 ∧ y = 1 := by
  rw [nontrivialRoot, decide_eq_true_iff, ne_eq x (n - 1), ← BitVec.toNat_inj, pred_toNat hn]

theorem earlyAt_iff_nontrivialRoot (hn : n ≠ 0) :
    Claims.earlyAt n x0 i ↔ nontrivialRoot n (Claims.squares n x0 i) (Claims.squares n x0 (i + 1)) = true :=
  (nontrivialRoot_iff hn _ _).symm

theorem ne_one_of_mulRem_eq_one {a b m : Word} (h : mulRem a b m = 1) : m ≠ 1 := by
  rintro rfl
  simp [mulRem, Nat.mod_one] at h

/-- Once a squaring gives 1, so does every later one. -/
theorem squares_eq_one_of_le (h : Claims.squares n x0 (i + 1) = 1) (hle : i + 1 ≤ k) : Claims.squares n x0 k = 1 := by
  have hn : n.toNat ≠ 1 := fun hn => ne_one_of_mulRem_eq_one h (BitVec.eq_of_toNat_eq hn)
  induction k, hle using Nat.le_induction with
  | base => exact h
  | succ k _ ih =>
    rw [squares_succ, ih, mulRem]
    exact congrArg (BitVec.ofNat 64) (Nat.one_mod_eq_one.2 hn)

/-- The loop can be left early at one squaring only: after it every `x_i` is 1. -/
theorem not_earlyAt_of_lt (h : Claims.earlyAt n x0 k) (hlt : i < k) : ¬ Claims.earlyAt n x0 i := by
  obtain ⟨hne, -, -⟩ := h
  exact fun ⟨_, _, hone⟩ => hne (squares_eq_one_of_le hone hlt)

/-! ## The verdict -/

theorem squaringsPass_iff (hn : n ≠ 0) : squaringsPass n k x0 = true ↔
    (∀ i < k, ¬ Claims.earlyAt n x0 i) ∧ Claims.squares n x0 k = 1 := by
  induction k generalizing x0 with
  | zero => simp [squaringsPass, Claims.squares]
  | succ k ih =>
    have hfirst : nontrivialRoot n x0 (mulRem x0 x0 n) = true ↔ Claims.earlyAt n x0 0 :=
      (earlyAt_iff_nontrivialRoot (x0 := x0) (i := 0) hn).symm
    simp only [squaringsPass, Bool.and_eq_true, Bool.not_eq_true', ← Bool.not_eq_true, hfirst, ih, earlyAt_mulRem,
      squares_mulRem, Nat.forall_lt_succ_left, and_assoc]

/-- `wtest` squares the power `s` times (42_witness.md R130). -/
theorem wtest_eq_squaringsPass {s : Word} (d a : Word) (hn : n ≠ 0) (hs : s ≠ 0) :
    wtest n s d a = some (squaringsPass n s.toNat (modexpRem a d n)) := by
  rw [wtest, if_neg (not_or.2 ⟨hn, hs⟩), wtestRem_eq_squaringsPass d a hn hs, modexpRem_eq_ofNat a d hn]

/-- The verdict at the end of a run is that of the function. -/
theorem witnessEnd_verdict {s x y cnt : Word} {steps : Nat} {verdict : Bool} (hn : n ≠ 0)
    (h : Claims.witnessEnd n s x0 steps x y cnt verdict) : verdict = squaringsPass n s.toNat x0 := by
  obtain ⟨i, hi, hearly, -, -, -, -, rfl⟩ | ⟨hnone, -, -, -, -, hverdict⟩ := h
  · refine (Bool.eq_false_iff.2 fun hpass => ?_).symm
    obtain ⟨hnone, -⟩ := (squaringsPass_iff hn).1 hpass
    exact hnone i hi hearly
  · rw [Bool.eq_iff_iff, squaringsPass_iff hn, hverdict, and_iff_right hnone]

end

/-- Settles O17: the loop of R130 is the recursion on the squarings left, whose meaning is `squaringsPass_iff`. -/
theorem wtestMeansNoNontrivialRootAndLastSquareOne : Obligations.WtestMeansNoNontrivialRootAndLastSquareOne :=
  fun _ _ d a hn hs => ⟨_, _, if_neg hn, wtest_eq_squaringsPass d a hn hs, squaringsPass_iff hn⟩

/-! ## The `Tick`s -/

theorem pred_eq_ofNat {v : Word} (h : v ≠ 0) : v - 1 = BitVec.ofNat 64 (v.toNat - 1) := by
  rw [← pred_toNat h, BitVec.ofNat_toNat, BitVec.setWidth_eq]

section
variable {s : State}

theorem tick_wtFin (hst : s.st = .wtFin) : tick s = .next (s.wtExit (decide (s.y = 1))) := by
  simp only [tick, hst, tickWtFin]

/-- `wt_exit` register by register (42_witness.md R138). -/
theorem wtExit_eq (s : State) (verdict : Bool) : s.wtExit verdict = { s with
    v := verdict
    done := if s.op = 3 then true else s.done
    st := if s.op = 3 then .idle else .svNext } := by
  obtain ⟨hop, heq⟩ | ⟨hop, heq⟩ := wtExit_cases s verdict
  · rw [heq, if_pos hop, if_pos hop]
  · rw [heq, if_neg hop, if_neg hop]

end

/-- Settles O18: each is a transition of the controller; `WT_CHK` splits on its test. -/
theorem witnessTicks : Obligations.WitnessTicks := by
  refine fun s => ⟨fun hst => (Transition.wtLoad hst).tick_eq, fun hst hn => (Transition.wtSqr hst hn).tick_eq,
    fun hst hn hcnt => ?_, fun hst => tick_wtFin hst⟩
  by_cases hroot : nontrivialRoot s.n s.x s.y = true
  · rw [if_pos ((nontrivialRoot_iff hn _ _).1 hroot), tick_wtChk_of_root hst hn hroot]
    rfl
  · rw [if_neg (mt (nontrivialRoot_iff hn _ _).2 hroot), ← pred_eq_ofNat hcnt,
      tick_wtChk_of_no_root hst hn (Bool.eq_false_iff.2 hroot) hcnt]
    simp only [sub_eq_zero]

/-! ## The run -/

/-- The block at `WT_SQR` with `x_i`, in a witness test that `s` starts at `WT_LOAD`, and `y` left in `Y`. -/
def State.squaring (s : State) (i : Nat) (y : Word) : State :=
  { s with x := Claims.squares s.n s.r i, y := y, cnt := BitVec.ofNat 64 (s.s.toNat - i), st := .wtSqr }

/-- The block at `WT_CHK` with `x_i` and its square, in that test (42_witness.md R141). -/
def State.checking (s : State) (i : Nat) : State :=
  { s with
    x := Claims.squares s.n s.r i
    y := Claims.squares s.n s.r (i + 1)
    cnt := BitVec.ofNat 64 (s.s.toNat - i)
    st := .wtChk }

/-- The exit of a witness test (42_witness.md R138), with `X`, `Y` and `CNT` as the run leaves them. -/
def State.leaveTest (s : State) (x y cnt : Word) (verdict : Bool) : State :=
  { s with
    x := x, y := y, cnt := cnt, v := verdict
    done := if s.op = 3 then true else s.done
    st := if s.op = 3 then .idle else .svNext }

section
variable {s : State} {i : Nat}

theorem checking_cnt_toNat (s : State) (i : Nat) : (s.checking i).cnt.toNat = s.s.toNat - i :=
  (BitVec.toNat_ofNat _ _).trans (Nat.mod_eq_of_lt ((Nat.sub_le _ _).trans_lt s.s.isLt))

theorem tick_wtLoad (hst : s.st = .wtLoad) : tick s = .next (s.squaring 0 s.y) := by
  rw [(Transition.wtLoad hst).tick_eq, State.squaring, Nat.sub_zero, BitVec.ofNat_toNat, BitVec.setWidth_eq, Claims.squares]

theorem tick_squaring (hn : s.n ≠ 0) (y : Word) : tick (s.squaring i y) = .next (s.checking i) :=
  (Transition.wtSqr (s := s.squaring i y) rfl hn).tick_eq

theorem tick_checking_of_early (hn : s.n ≠ 0) (hearly : Claims.earlyAt s.n s.r i) :
    tick (s.checking i) = .next (s.leaveTest (Claims.squares s.n s.r i) 1 (BitVec.ofNat 64 (s.s.toNat - i)) false) := by
  have ⟨_, _, hone⟩ := hearly
  rw [tick_wtChk_of_root (s := s.checking i) rfl hn ((earlyAt_iff_nontrivialRoot hn).1 hearly), wtExit_eq, ← hone]
  rfl

/-- Without an early exit `WT_CHK` moves on to the next square, and to `WT_FIN` when no squaring is left. -/
theorem tick_checking_of_not_early (hn : s.n ≠ 0) (hi : i < s.s.toNat) (hnot : ¬ Claims.earlyAt s.n s.r i) :
    tick (s.checking i) = .next { s with
      x := Claims.squares s.n s.r (i + 1)
      y := Claims.squares s.n s.r (i + 1)
      cnt := BitVec.ofNat 64 (s.s.toNat - (i + 1))
      st := if s.s.toNat = i + 1 then .wtFin else .wtSqr } := by
  have hleft := checking_cnt_toNat s i
  have hcnt : (s.checking i).cnt ≠ 0 := ne_zero_of_toNat_pos (by omega)
  have hpred : (s.checking i).cnt - 1 = BitVec.ofNat 64 (s.s.toNat - (i + 1)) := by
    rw [pred_eq_ofNat hcnt, hleft, Nat.sub_sub]
  have hlast : (s.checking i).cnt - 1 = 0 ↔ s.s.toNat = i + 1 := by
    rw [← BitVec.toNat_inj, pred_toNat hcnt, hleft, BitVec.ofNat_eq_ofNat, BitVec.toNat_zero]
    omega
  have hroot := Bool.eq_false_iff.2 (mt (earlyAt_iff_nontrivialRoot hn).2 hnot)
  rw [tick_wtChk_of_no_root (s := s.checking i) rfl hn hroot hcnt]
  simp only [hlast]
  rw [hpred]
  rfl

/-- Two `Tick`s a squaring after the one of `WT_LOAD`, as long as none leaves early (42_witness.md R141). -/
theorem ticks_checking (hst : s.st = .wtLoad) (hn : s.n ≠ 0) (hi : i < s.s.toNat)
    (hnone : ∀ j < i, ¬ Claims.earlyAt s.n s.r j) : ticks (2 * i + 2) s = .next (s.checking i) := by
  induction i with
  | zero => rw [ticks_succ_of_tick _ (tick_wtLoad hst), ticks_succ_of_tick _ (tick_squaring hn _), ticks_zero]
  | succ i ih =>
    have hchk : tick (s.checking i) = .next (s.squaring (i + 1) (Claims.squares s.n s.r (i + 1))) := by
      rw [tick_checking_of_not_early hn (by omega) (hnone i (Nat.lt_succ_self i)), if_neg (by omega), State.squaring]
    rw [show 2 * (i + 1) + 2 = 2 * i + 2 + 2 by omega,
      ticks_add _ (ih (by omega) fun j hj => hnone j (Nat.lt_succ_of_lt hj)), ticks_succ_of_tick _ hchk,
      ticks_succ_of_tick _ (tick_squaring hn _), ticks_zero]

theorem ticks_wtLoad_of_early (hst : s.st = .wtLoad) (hn : s.n ≠ 0) (hi : i < s.s.toNat)
    (hearly : Claims.earlyAt s.n s.r i) : ticks (2 * i + 3) s =
      .next (s.leaveTest (Claims.squares s.n s.r i) 1 (BitVec.ofNat 64 (s.s.toNat - i)) false) := by
  rw [ticks_add 1 (ticks_checking hst hn hi fun j => not_earlyAt_of_lt hearly),
    ticks_succ_of_tick _ (tick_checking_of_early hn hearly), ticks_zero]

theorem ticks_wtLoad_of_no_early (hst : s.st = .wtLoad) (hn : s.n ≠ 0) (hs : s.s ≠ 0)
    (hnone : ∀ i < s.s.toNat, ¬ Claims.earlyAt s.n s.r i) : ticks (2 * s.s.toNat + 2) s =
      .next (s.leaveTest (Claims.squares s.n s.r s.s.toNat) (Claims.squares s.n s.r s.s.toNat) 0
        (decide (Claims.squares s.n s.r s.s.toNat = 1))) := by
  obtain ⟨last, hlast⟩ : ∃ last, s.s.toNat = last + 1 := Nat.exists_eq_add_one.2 (word_pos hs)
  have hlt : last < s.s.toNat := by omega
  have hchk := tick_checking_of_not_early hn hlt (hnone last hlt)
  rw [if_pos hlast, ← hlast, Nat.sub_self] at hchk
  rw [show 2 * s.s.toNat + 2 = 2 * last + 2 + 2 by omega,
    ticks_add _ (ticks_checking hst hn hlt fun j hj => hnone j (hj.trans hlt)), ticks_succ_of_tick _ hchk,
    ticks_succ_of_tick _ (tick_wtFin rfl), wtExit_eq, ticks_zero]
  rfl

/-- A witness test from `WT_LOAD` comes to one of the two ends of 42_witness.md R141. -/
theorem exists_witnessEnd (hst : s.st = .wtLoad) (hn : s.n ≠ 0) (hs : s.s ≠ 0) :
    ∃ steps x y cnt verdict, Claims.witnessEnd s.n s.s s.r steps x y cnt verdict ∧
      ticks steps s = .next (s.leaveTest x y cnt verdict) := by
  by_cases hearly : ∃ i < s.s.toNat, Claims.earlyAt s.n s.r i
  · obtain ⟨i, hi, hearly⟩ := hearly
    exact ⟨_, _, _, _, _, .inl ⟨i, hi, hearly, rfl, rfl, rfl, checking_cnt_toNat s i, rfl⟩,
      ticks_wtLoad_of_early hst hn hi hearly⟩
  · have hnone : ∀ i < s.s.toNat, ¬ Claims.earlyAt s.n s.r i := by simpa using hearly
    exact ⟨_, _, _, _, _, .inr ⟨hnone, rfl, rfl, rfl, rfl, decide_eq_true_iff⟩,
      ticks_wtLoad_of_no_early hst hn hs hnone⟩

end

/-- Settles O19: the run up to the check that leaves early, or up to `WT_FIN`. -/
theorem witnessTestEndState : Obligations.WitnessTestEndState := fun _ hst hn hs =>
  ⟨fun _ hi hearly => ticks_wtLoad_of_early hst hn hi hearly, fun hnone => ticks_wtLoad_of_no_early hst hn hs hnone⟩

/-- Settles O20: the checks when the command is issued, then one engine run, then one witness test on its result. -/
theorem wtestCommandCompletes : Obligations.WtestCommandCompletes := by
  refine ⟨decode_encode .wtest, fun s hst => ⟨fun hn => ?_, fun hn hs => ?_, fun hn hs =>
    ⟨exec_of_accepted hst ⟨hn, hs⟩, ?_⟩⟩⟩
  · rw [exec_of_idle _ hst, issued, if_pos hn]
    rfl
  · rw [exec_of_idle _ hst, issued, if_neg hn, if_pos hs]
    rfl
  · have hengine := ticks_of_meInit (s := s.accept .wtest) rfl hn
    obtain ⟨steps, x, y, cnt, verdict, hend, htest⟩ := exists_witnessEnd
      (s := (s.accept .wtest).leaveEngine (modexpRem s.a s.d s.n) (baseEnd s.a s.d s.n)) rfl hn hs
    refine ⟨modexpRem s.a s.d s.n, steps, x, y, cnt, verdict, modexpRem_toNat _ _ hn, hend, ?_,
      (ticks_add steps hengine).trans htest⟩
    rw [witnessEnd_verdict hn hend]
    exact wtest_eq_squaringsPass s.d s.a hn hs

end Sys2Proof.Machine
end

section
/-! SUPPORT. The controller as a whole (43_sieve.md section 4): which state follows which, and that a command ends. -/

namespace Sys2Proof.Machine

/-- Settles O33: each transition leads to a state that R169's table lists. -/
theorem tickFollowsTheSuccessorRelation : Obligations.TickFollowsTheSuccessorRelation := by
  intro s t h
  cases Transition.of_tick h <;> simp [tickSuccessors, *]

/-- Settles O36: a busy block completes its command, and a block at rest needs no `Tick`. -/
theorem runningCommandsEnd : Obligations.RunningCommandsEnd := by
  intro s h
  cases hbusy : s.busy with
  | false => exact ⟨0, s, ticks_zero s, hbusy⟩
  | true =>
    obtain ⟨k, t, hrun, hidle, -⟩ := h.exists_ticks_done hbusy
    exact ⟨k, t, hrun, (busy_eq_false_iff t).2 (.inl hidle)⟩

end Sys2Proof.Machine
end

section
/-! SUPPORT. Quick elimination (43_sieve.md R151) on numbers, and the `Tick`s of the sieve. -/

namespace Sys2Proof.Machine

/-! ## Quick elimination -/

section
variable {n : Word}

theorem eq_ofNat_iff_toNat_eq {k : Nat} (hk : k < 2 ^ 64) : n = BitVec.ofNat 64 k ↔ n.toNat = k := by
  rw [← BitVec.toNat_inj, BitVec.toNat_ofNat, Nat.mod_eq_of_lt hk]

theorem eq_two_iff : n = 2 ↔ n.toNat = 2 := eq_ofNat_iff_toNat_eq (by decide)

theorem eq_three_iff : n = 3 ↔ n.toNat = 3 := eq_ofNat_iff_toNat_eq (by decide)

/-- The lines of quick elimination on the number that the word stands for (43_sieve.md R151). -/
theorem quickVerdict_eq_ite (n : Word) : quickVerdict n =
    if n.toNat < 2 then some false
    else if n.toNat % 2 = 0 ∧ n.toNat ≠ 2 then some false
    else if n.toNat % 3 = 0 ∧ n.toNat ≠ 3 then some false
    else if n.toNat ≤ 3 then some true
    else none := by
  have heven : (!isOdd n && n != 2) = true ↔ n.toNat % 2 = 0 ∧ n.toNat ≠ 2 := by
    rw [Bool.and_eq_true, Bool.not_eq_true', isOdd_false_iff, bne_iff_ne, ne_eq, eq_two_iff]
  simp only [quickVerdict, heven, ne_eq, eq_three_iff]

theorem quickVerdict_eq_false_iff : quickVerdict n = some false ↔
    n.toNat < 2 ∨ n.toNat % 2 = 0 ∧ n.toNat ≠ 2 ∨ n.toNat % 3 = 0 ∧ n.toNat ≠ 3 := by
  rw [quickVerdict_eq_ite]
  split_ifs <;> simp <;> omega

theorem quickVerdict_eq_true_iff : quickVerdict n = some true ↔ n.toNat = 2 ∨ n.toNat = 3 := by
  rw [quickVerdict_eq_ite]
  split_ifs <;> simp <;> omega

theorem quickVerdict_eq_none_iff : quickVerdict n = none ↔ n.toNat % 2 = 1 ∧ n.toNat % 3 ≠ 0 ∧ 5 ≤ n.toNat := by
  rw [quickVerdict_eq_ite]
  split_ifs <;> simp <;> omega

end

/-- Settles O26: each verdict has its own numbers. -/
theorem quickEliminationAndItsSurvivors : Obligations.QuickEliminationAndItsSurvivors := fun _ =>
  ⟨fun hlt => quickVerdict_eq_false_iff.2 (.inl hlt),
    fun heven hne => quickVerdict_eq_false_iff.2 (.inr (.inl ⟨heven, hne⟩)),
    fun hthree hne => quickVerdict_eq_false_iff.2 (.inr (.inr ⟨hthree, hne⟩)),
    quickVerdict_eq_true_iff.2, quickVerdict_eq_none_iff⟩

/-- Settles O28: acceptance, then the transition out of `SV_QUICK` that writes the verdict. -/
theorem isprimeQuickCompletes : Obligations.IsprimeQuickCompletes := fun s verdict hst hquick =>
  ⟨exec_of_accepted hst trivial, (Transition.svQuickDecided (s := s.accept .isprime) rfl verdict hquick).tick_eq,
    isprime_of_quick_some hquick⟩

/-! ## The `Tick`s of the sieve -/

section
variable {s : State}

theorem successor_eq_ofNat {w : Nat} (v : BitVec w) : v + 1 = BitVec.ofNat w (v.toNat + 1) := by
  rw [BitVec.ofNat_add, BitVec.ofNat_toNat, BitVec.setWidth_eq]
  rfl

theorem tick_svQuick (hst : s.st = .svQuick) : tick s = .next (
    if s.n.toNat < 2 then { s with v := false, done := true, st := .idle }
    else if s.n.toNat % 2 = 0 ∧ s.n ≠ 2 then { s with v := false, done := true, st := .idle }
    else if s.n.toNat % 3 = 0 ∧ s.n ≠ 3 then { s with v := false, done := true, st := .idle }
    else if s.n.toNat ≤ 3 then { s with v := true, done := true, st := .idle }
    else { s with st := .svDec0 }) := by
  simp only [tick, hst, tickSvQuick, quickVerdict_eq_ite, ne_eq, eq_two_iff, eq_three_iff]
  split_ifs <;> rfl

theorem tick_svDec (hst : s.st = .svDec) (hfits : s.s.toNat < 2 ^ 64 - 1) : tick s = .next (
    if s.d.toNat % 2 = 0 then { s with d := BitVec.ofNat 64 (s.d.toNat / 2), s := BitVec.ofNat 64 (s.s.toNat + 1) }
    else if s.op = 4 then { s with done := true, st := .idle } else { s with st := .svSel0 }) := by
  by_cases heven : s.d.toNat % 2 = 0
  · rw [if_pos heven, (Transition.svDecHalve hst ((isOdd_false_iff _).2 heven) (by omega)).tick_eq, half_eq_ofNat,
      successor_eq_ofNat]
  · have hodd : isOdd s.d = true := (isOdd_iff _).2 (by omega)
    rw [if_neg heven]
    by_cases hop : s.op = 4
    · rw [if_pos hop, (Transition.svDecFinish hst hodd hop).tick_eq]
    · rw [if_neg hop, (Transition.svDecSelect hst hodd hop).tick_eq]

/-- A row that `SV_SCAN` does not select has a bound, which `n` reaches, and a row after it (43_sieve.md R163). -/
theorem tick_svScan_of_not_selects (hst : s.st = .svScan) (hrow : s.row.toNat ≤ 11) (hnot : ¬ rowSelects s.n s.row) :
    tick s = .next { s with row := s.row + 1 } := by
  obtain ⟨hne, hbelow⟩ := not_or.1 hnot
  have hlt : s.row.toNat < 11 := Nat.lt_of_le_of_ne hrow fun h => hne (BitVec.eq_of_toNat_eq h)
  obtain ⟨bound, hbound⟩ := exists_romBound_of_lt hlt
  exact (Transition.svScanMore hst hne bound hbound (Nat.not_lt.1 fun hn => hbelow ⟨bound, hbound, hn⟩)).tick_eq

theorem tick_svScan (hst : s.st = .svScan) (hrow : s.row.toNat ≤ 11) : tick s = .next (
    if s.row = 11 ∨ (romBound s.row.toNat).any (fun bound => decide (s.n.toNat < bound.toNat)) = true then
      (if s.op = 5 then { s with done := true, st := .idle } else { s with st := .svWit })
    else { s with row := BitVec.ofNat 4 (s.row.toNat + 1) }) := by
  have hselects : (s.row = 11 ∨ (romBound s.row.toNat).any (fun bound => decide (s.n.toNat < bound.toNat)) = true) ↔
      rowSelects s.n s.row := by
    simp only [rowSelects, Option.any_eq_true, decide_eq_true_iff]
  by_cases hsel : rowSelects s.n s.row
  · rw [if_pos (hselects.2 hsel), hsel.tick_eq hst]
    rfl
  · rw [if_neg (mt hselects.1 hsel), tick_svScan_of_not_selects hst hrow hsel, successor_eq_ofNat]

theorem tick_svNext (hst : s.st = .svNext) {count : Nat} (hcount : romCount s.row.toNat = some count)
    (hwi : s.wi.toNat < count) : tick s = .next (
    if s.v = false then { s with done := true, st := .idle }
    else if s.wi.toNat + 1 = count then { s with done := true, st := .idle }
    else { s with wi := BitVec.ofNat 4 (s.wi.toNat + 1), st := .svWit }) := by
  by_cases hv : s.v = false
  · rw [if_pos hv, (Transition.svNextFailed hst hv).tick_eq]
  · rw [if_neg hv]
    rw [Bool.not_eq_false] at hv
    by_cases hlast : s.wi.toNat + 1 = count
    · rw [if_pos hlast, (Transition.svNextLast hst hv (hlast ▸ hcount)).tick_eq]
    · obtain ⟨-, htwelve⟩ := romCount_bounds hcount
      rw [if_neg hlast, (Transition.svNextMore hst hv count hcount hlast (by omega)).tick_eq, successor_eq_ofNat]

end

/-- Settles O27: each is a transition of the controller, with the words it writes as numbers. -/
theorem sieveTicks : Obligations.SieveTicks := by
  refine fun s => ⟨tick_svQuick, fun hst hn => ?_, tick_svDec, fun hst => (Transition.svSel0 hst).tick_eq, tick_svScan,
    fun hst w hw => (Transition.svWit hst w hw).tick_eq, fun hst _ => tick_svNext hst⟩
  rw [← pred_toNat hn, ← half_eq_ofNat]
  exact (Transition.svDec0 hst hn).tick_eq

end Sys2Proof.Machine
end

section
/-! SUPPORT. `DECOMP` (43_sieve.md R152, R156): the halving loop keeps the split of `N − 1`, and the `Tick`s that run it. -/

namespace Sys2Proof.Machine

/-! ## The halving loop -/

section
variable {n s d : Word} {fuel : Nat}

/-- The loop ends with an odd part: a word has room for fewer than 64 halvings (43_sieve.md R152). -/
theorem decompLoop_splits (h : splits n s d) (hfuel : 64 ≤ s.toNat + fuel) :
    splits n (decompLoop fuel s d).1 (decompLoop fuel s d).2 ∧ isOdd (decompLoop fuel s d).2 = true := by
  induction fuel generalizing s d with
  | zero =>
    obtain ⟨-, hle, -⟩ := h
    omega
  | succ fuel ih =>
    have ⟨_, hle, _⟩ := h
    cases hodd : isOdd d with
    | true => rw [decompLoop_of_odd hodd]; exact ⟨h, hodd⟩
    | false =>
      have hnext := splits_halve h hodd (by omega)
      rw [decompLoop_succ_of_even hodd]
      exact ih hnext (by rw [successor_toNat (by omega)]; omega)

theorem decompOdd_splits (h : decompInDomain n = true) :
    splits n (decompOdd n).1 (decompOdd n).2 ∧ isOdd (decompOdd n).2 = true :=
  decompLoop_splits (splits_start h) (by decide)

theorem decomp_of_inDomain (h : decompInDomain n = true) : decomp n = some (decompOdd n) := if_pos h

theorem decompInDomain_eq_false_iff : decompInDomain n = false ↔ n.toNat < 3 ∨ n.toNat % 2 = 0 := by
  rw [← Bool.not_eq_true, decompInDomain_iff]
  omega

end

/-- Settles O21: the loop starts at a split of `n − 1` and each halving keeps it one. -/
theorem decompSplitsNMinusOne : Obligations.DecompSplitsNMinusOne := by
  refine fun n => ⟨fun hdomain => ?_, fun hout => ?_⟩
  · have hdomain := (decompInDomain_iff n).2 hdomain
    obtain ⟨⟨hpos, hle, -, heq⟩, hodd⟩ := decompOdd_splits hdomain
    exact ⟨_, _, decomp_of_inDomain hdomain, Nat.sub_eq_of_eq_add heq, (isOdd_iff _).1 hodd, hpos, hle⟩
  · rw [decomp, decompInDomain_eq_false_iff.2 hout]
    rfl

/-! ## The run -/

/-- The exit from the decomposition at `SV_DEC` with an odd `D` (43_sieve.md R161), with `S` and `D` as the loop leaves them. -/
def State.leaveDecomp (s : State) (split : Word × Word) : State :=
  { s with
    s := split.1, d := split.2
    st := if s.op = 4 then .idle else .svSel0
    done := if s.op = 4 then true else s.done }

section
variable {s : State}

theorem tick_svDec_of_odd (hst : s.st = .svDec) (hodd : isOdd s.d = true) :
    tick s = .next (s.leaveDecomp (s.s, s.d)) := by
  by_cases hop : s.op = 4
  · rw [(Transition.svDecFinish hst hodd hop).tick_eq, State.leaveDecomp, if_pos hop, if_pos hop]
  · rw [(Transition.svDecSelect hst hodd hop).tick_eq, State.leaveDecomp, if_neg hop, if_neg hop]

/-- `SV_DEC` runs the halving loop, one `Tick` a halving and one to leave. -/
theorem exists_ticks_svDec {fuel : Nat} (hst : s.st = .svDec) (h : splits s.n s.s s.d) (hfuel : 64 ≤ s.s.toNat + fuel) :
    ∃ halvings, (decompLoop fuel s.s s.d).1.toNat = s.s.toNat + halvings ∧
      ticks (halvings + 1) s = .next (s.leaveDecomp (decompLoop fuel s.s s.d)) := by
  induction fuel generalizing s with
  | zero =>
    obtain ⟨-, hle, -⟩ := h
    omega
  | succ fuel ih =>
    have ⟨_, hle, _⟩ := h
    cases hodd : isOdd s.d with
    | true =>
      rw [decompLoop_of_odd hodd]
      exact ⟨0, rfl, by rw [ticks_succ_of_tick _ (tick_svDec_of_odd hst hodd), ticks_zero]⟩
    | false =>
      have hfits : s.s.toNat + 1 < 2 ^ 64 := by omega
      have hnext := splits_halve h hodd hfits
      obtain ⟨halvings, hcount, hrun⟩ := ih (s := { s with d := half s.d, s := s.s + 1 }) hst hnext
        (by rw [successor_toNat hfits]; omega)
      rw [decompLoop_succ_of_even hodd]
      refine ⟨halvings + 1, ?_, ?_⟩
      · rw [hcount, successor_toNat hfits]
        omega
      · rw [ticks_succ_of_tick _ (Transition.svDecHalve hst hodd hfits).tick_eq, hrun]
        rfl

/-- The decomposition from `SV_DEC0` on, for `DECOMP` and `ISPRIME` alike (43_sieve.md R160, R161). -/
theorem ticks_svDec0 (hst : s.st = .svDec0) (hdomain : decompInDomain s.n = true) :
    ticks ((decompOdd s.n).1.toNat + 1) s = .next (s.leaveDecomp (decompOdd s.n)) := by
  obtain ⟨halvings, hcount, hrun⟩ := exists_ticks_svDec (fuel := 64)
    (s := { s with d := half (s.n - 1), s := 1, st := .svDec }) rfl (splits_start hdomain) (Nat.le_add_left 64 _)
  have hcount : (decompOdd s.n).1.toNat = halvings + 1 := hcount.trans (Nat.add_comm ..)
  rw [hcount, ticks_succ_of_tick _ (Transition.svDec0 hst (ne_zero_of_decompInDomain hdomain)).tick_eq]
  exact hrun

end

/-- Settles O22: the check of `N` when the command is issued, then the decomposition. -/
theorem decompCommandCompletes : Obligations.DecompCommandCompletes := by
  refine ⟨decode_encode .decomp, fun s hst => ⟨fun hout => ?_, fun hthree hodd => ?_⟩⟩
  · rw [exec_of_idle _ hst, issued, decompInDomain_eq_false_iff.2 hout]
    rfl
  · have hdomain := (decompInDomain_iff s.n).2 ⟨hthree, hodd⟩
    obtain ⟨⟨-, -, -, heq⟩, hodd⟩ := decompOdd_splits hdomain
    exact ⟨exec_of_accepted hst hdomain, _, _, decomp_of_inDomain hdomain, Nat.sub_eq_of_eq_add heq, (isOdd_iff _).1 hodd,
      ticks_svDec0 (s := s.accept .decomp) rfl hdomain⟩

end Sys2Proof.Machine
end

section
/-! SUPPORT. `WSEL` (43_sieve.md R153, R157): the scan stops at the row of `N`. -/

namespace Sys2Proof.Machine

/-- The scan has not gone past the row of `n`, so the row it selects is that one (44_wrom.md R184). -/
theorem rowSelects_iff {n : Word} {row : Nibble} (hle : row.toNat ≤ wsel n) :
    rowSelects n row ↔ row.toNat = wsel n := by
  refine ⟨fun h => h.eq_wsel hle, fun heq => ?_⟩
  by_contra hnot
  obtain ⟨hne, hbelow⟩ := not_or.1 hnot
  have hlt : row.toNat < 11 := Nat.lt_of_le_of_ne (Nat.le_of_lt_succ (heq ▸ wsel_lt n)) fun h =>
    hne (BitVec.eq_of_toNat_eq h)
  obtain ⟨bound, hbound⟩ := exists_romBound_of_lt hlt
  exact wsel_ne_of_bound_le hbound (Nat.not_lt.1 fun hn => hbelow ⟨bound, hbound, hn⟩) heq.symm

/-- The exit from the scan at `SV_SCAN` (43_sieve.md R163) with the row of `N`. -/
def State.leaveScan (s : State) : State := { s with row := BitVec.ofNat 4 (wsel s.n) }.rowSelected

section
variable {s : State}

/-- `SV_SCAN` takes one `Tick` for each row it passes and one for the row it selects. -/
theorem ticks_svScan {passed : Nat} (hst : s.st = .svScan) (h : s.row.toNat + passed = wsel s.n) :
    ticks (passed + 1) s = .next s.leaveScan := by
  have hlast := wsel_lt s.n
  induction passed generalizing s with
  | zero =>
    have hrow : s.row = BitVec.ofNat 4 (wsel s.n) := by rw [← h, Nat.add_zero, BitVec.ofNat_toNat, BitVec.setWidth_eq]
    rw [ticks_succ_of_tick _ (((rowSelects_iff h.le).2 h).tick_eq hst), ticks_zero, State.leaveScan, ← hrow]
  | succ passed ih =>
    have hnot : ¬ rowSelects s.n s.row := by
      rw [rowSelects_iff (by omega)]
      omega
    have hpassed : (s.row + 1).toNat + passed = wsel s.n := by rw [successor_toNat (by omega)]; omega
    have hnext := ih (s := { s with row := s.row + 1 }) hst hpassed hlast
    rw [ticks_succ_of_tick _ (tick_svScan_of_not_selects hst (by omega) hnot), hnext]
    rfl

/-- The row selection from `SV_SEL0` on, for `WSEL` and `ISPRIME` alike (43_sieve.md R162, R163). -/
theorem ticks_svSel0 (hst : s.st = .svSel0) : ticks (wsel s.n + 2) s = .next { s with wi := 0 }.leaveScan := by
  rw [ticks_succ_of_tick _ (Transition.svSel0 hst).tick_eq]
  exact ticks_svScan (s := { s with row := 0, wi := 0, st := .svScan }) rfl (Nat.zero_add _)

end

/-- Settles O25: acceptance, then the row selection. -/
theorem wselCommandCompletes : Obligations.WselCommandCompletes :=
  ⟨decode_encode .wsel, fun s hst => ⟨exec_of_accepted hst trivial, ticks_svSel0 (s := s.accept .wsel) rfl⟩⟩

end Sys2Proof.Machine
end

section
/-! SUPPORT. The witnesses of a row against the numbers that select it (44_wrom.md R182, R184, R188): every precondition of the
witness test holds when the sieve starts it (43_sieve.md R167). -/

namespace Sys2Proof.Machine

section
variable {n witness : Word} {r k : Nat}

theorem mem_romWitnesses_of_romWit (h : romWit r k = some witness) : witness ∈ romWitnesses r :=
  List.mem_of_getElem? h

theorem lt_of_mem_romWitnesses (h : witness ∈ romWitnesses r) : r < 12 := by
  by_contra hr
  simp [romWitnesses, List.getElem?_eq_none (l := romTable) (Nat.not_lt.1 hr)] at h

/-- Every witness is in 2..80 (44_wrom.md R182). -/
theorem bounds_of_mem_romWitnesses (h : witness ∈ romWitnesses r) : 2 ≤ witness.toNat ∧ witness.toNat ≤ 80 := by
  have hr := lt_of_mem_romWitnesses h
  revert witness
  interval_cases r <;> simp [romWitnesses, romTable]

/-- Past row 0 every witness is below the bound of row 0, and row 0 has the one witness 2 (44_wrom.md R188). -/
theorem bounds_of_mem_selected (hn : 5 ≤ n.toNat) (h : witness ∈ romWitnesses (wsel n)) :
    1 < witness.toNat ∧ witness.toNat < n.toNat := by
  obtain ⟨htwo, heighty⟩ := bounds_of_mem_romWitnesses h
  refine ⟨htwo, ?_⟩
  by_cases hzero : wsel n = 0
  · rw [hzero] at h
    obtain rfl : witness = 2 := List.mem_singleton.1 h
    exact hn.trans_lt' (by decide)
  · have hlarge : 2047 ≤ n.toNat := Nat.not_lt.1 fun hlt => hzero (Nat.le_zero.1 (wsel_le_of_lt_bound (r := 0) rfl hlt))
    omega

end

/-- Settles O32: soundness at `SV_WIT` is what `ISPRIME` has established, and the selected row's witnesses are below `N`. -/
theorem sieveStartsWitnessTestsInContract : Obligations.SieveStartsWitnessTestsInContract := by
  intro s h hst
  obtain ⟨-, -, -, hop, hduty⟩ := inv_iff_duty.1 h
  simp only [State.duty, hst] at hduty
  obtain ⟨⟨hquick, ⟨hS, -, -, heq⟩, hodd⟩, hrow, hsome⟩ := hduty (op_eq_isprime_of_svWit hop hst)
  obtain ⟨hfive, hnodd⟩ := bounds_of_quickVerdict_none hquick
  obtain ⟨witness, hwit⟩ := Option.isSome_iff_exists.1 hsome
  obtain ⟨hone, hlt⟩ := bounds_of_mem_selected hfive (hrow ▸ mem_romWitnesses_of_romWit hwit)
  exact ⟨hfive, hnodd, hS, (isOdd_iff _).1 hodd, Nat.sub_eq_of_eq_add heq, _, (Transition.svWit hst witness hwit).tick_eq,
    hone, hlt, rfl⟩

end Sys2Proof.Machine
end

section
/-! SUPPORT. A prime passes the witness test of every base that it does not divide (43_sieve.md R168): the squares in the field
of residues, where 1 has no square roots but itself and its negative. -/

namespace Sys2Proof.Machine

section
variable {n x0 s d a : Word}

theorem squares_cast (hn : n ≠ 0) (x0 : Word) (i : Nat) :
    ((Claims.squares n x0 i).toNat : ZMod n.toNat) = (x0.toNat : ZMod n.toNat) ^ 2 ^ i := by
  induction i with
  | zero => rw [Claims.squares, pow_zero, pow_one]
  | succ i ih => rw [squares_succ, mulRem_toNat _ _ hn, ZMod.natCast_mod, Nat.cast_mul, ih, ← pow_two, ← pow_mul, pow_succ]

theorem modexpRem_lt (b e : Word) (hn : n ≠ 0) : (modexpRem b e n).toNat < n.toNat := by
  rw [modexpRem_toNat b e hn]
  exact Nat.mod_lt _ (word_pos hn)

theorem squares_lt (hn : n ≠ 0) (hx : x0.toNat < n.toNat) (i : Nat) : (Claims.squares n x0 i).toNat < n.toNat := by
  cases i with
  | zero => exact hx
  | succ i => exact mulRem_lt _ _ hn

theorem eq_of_cast_eq {x y m : Nat} (hx : x < m) (hy : y < m) (h : (x : ZMod m) = y) : x = y :=
  ((ZMod.natCast_eq_natCast_iff _ _ _).1 h).eq_of_lt_of_lt hx hy

/-- A prime has no nontrivial square root of 1, so no squaring leaves the loop early. -/
theorem not_earlyAt_of_prime (hp : n.toNat.Prime) (hx : x0.toNat < n.toNat) (i : Nat) : ¬ Claims.earlyAt n x0 i := by
  rintro ⟨hne, hnePred, hone⟩
  have hn : n ≠ 0 := ne_zero_of_toNat_pos hp.pos
  have hlt := squares_lt hn hx i
  have : Fact n.toNat.Prime := ⟨hp⟩
  have hsquare : ((Claims.squares n x0 i).toNat : ZMod n.toNat) * (Claims.squares n x0 i).toNat = 1 := by
    rw [squares_cast hn, ← pow_two, ← pow_mul, ← pow_succ, ← squares_cast hn, hone]
    exact Nat.cast_one
  obtain hroot | hroot := mul_self_eq_one_iff.1 hsquare
  · exact hne (BitVec.eq_of_toNat_eq (eq_of_cast_eq hlt hp.one_lt (hroot.trans Nat.cast_one.symm)))
  · refine hnePred (eq_of_cast_eq hlt (Nat.sub_lt hp.pos one_pos) (hroot.trans ?_))
    rw [Nat.cast_sub hp.one_le, ZMod.natCast_self, Nat.cast_one, zero_sub]

/-- The last square is `a^(n − 1)`, which is 1 by Fermat's little theorem. -/
theorem squares_eq_one_of_prime (hp : n.toNat.Prime) (h : splits n s d) (ha : 1 < a.toNat) (hlt : a.toNat < n.toNat) :
    Claims.squares n (modexpRem a d n) s.toNat = 1 := by
  obtain ⟨-, -, -, heq⟩ := h
  have hn : n ≠ 0 := ne_zero_of_toNat_pos hp.pos
  have : Fact n.toNat.Prime := ⟨hp⟩
  have hne : (a.toNat : ZMod n.toNat) ≠ 0 := fun h0 =>
    Nat.not_dvd_of_pos_of_lt (Nat.zero_lt_of_lt ha) hlt ((ZMod.natCast_eq_zero_iff _ _).1 h0)
  have hfermat : ((Claims.squares n (modexpRem a d n) s.toNat).toNat : ZMod n.toNat) = (1 : Nat) := calc
    _ = (a.toNat : ZMod n.toNat) ^ (2 ^ s.toNat * d.toNat) := by
      rw [squares_cast hn, modexpRem_toNat _ _ hn, ZMod.natCast_mod, Nat.cast_pow, ← pow_mul, Nat.mul_comm]
    _ = (a.toNat : ZMod n.toNat) ^ (n.toNat - 1) := by rw [Nat.sub_eq_of_eq_add heq]
    _ = (1 : Nat) := by rw [ZMod.pow_card_sub_one_eq_one hne, Nat.cast_one]
  exact BitVec.eq_of_toNat_eq (eq_of_cast_eq (squares_lt hn (modexpRem_lt a d hn) _) hp.one_lt hfermat)

theorem wtestRem_of_prime (hp : n.toNat.Prime) (h : splits n s d) (ha : 1 < a.toNat) (hlt : a.toNat < n.toNat) :
    wtestRem n s d a = true := by
  have hn : n ≠ 0 := ne_zero_of_toNat_pos hp.pos
  have ⟨hs, _⟩ := h
  rw [wtestRem_eq_squaringsPass d a hn (ne_zero_of_toNat_pos hs), ← modexpRem_eq_ofNat a d hn, squaringsPass_iff hn]
  exact ⟨fun i _ => not_earlyAt_of_prime hp (modexpRem_lt a d hn) i, squares_eq_one_of_prime hp h ha hlt⟩

end

theorem quickVerdict_ne_false_of_prime {n : Word} (hp : n.toNat.Prime) : quickVerdict n ≠ some false := by
  intro h
  obtain hlt | ⟨htwo, hne⟩ | ⟨hthree, hne⟩ := quickVerdict_eq_false_iff.1 h
  · have := hp.two_le
    omega
  · exact hne ((Nat.prime_dvd_prime_iff_eq Nat.prime_two hp).1 (Nat.dvd_of_mod_eq_zero htwo)).symm
  · exact hne ((Nat.prime_dvd_prime_iff_eq Nat.prime_three hp).1 (Nat.dvd_of_mod_eq_zero hthree)).symm

/-- Settles O31: quick elimination refuses no prime, and a prime that it leaves undecided passes every witness of its row. -/
theorem everyPrimeIsAccepted : Obligations.EveryPrimeIsAccepted := by
  intro n hp
  cases hquick : quickVerdict n with
  | some verdict =>
    cases verdict with
    | true => exact isprime_of_quick_some hquick
    | false => exact absurd hquick (quickVerdict_ne_false_of_prime hp)
  | none =>
    obtain ⟨hfive, -⟩ := bounds_of_quickVerdict_none hquick
    obtain ⟨hsplits, -⟩ := decompOdd_splits (decompInDomain_of_quickVerdict hquick)
    rw [isprime_of_quick_none hquick, allPass, List.all_eq_true]
    intro witness hmem
    obtain ⟨hone, hlt⟩ := bounds_of_mem_selected hfive hmem
    exact wtestRem_of_prime hp hsplits hone hlt

end Sys2Proof.Machine
end

section
/-! SUPPORT. `ISPRIME` past quick elimination (43_sieve.md R158, R164, R165): one witness test from `SV_WIT` to `SV_NEXT`, the
tests of a row one after the other, and the whole run with its count. -/

namespace Sys2Proof.Machine

/-! ## One witness -/

/-- The block back at `SV_NEXT` from the test of a witness (42_witness.md R141), with `X`, `Y` and `CNT` as the test leaves
them. -/
def State.tested (s : State) (witness x y cnt : Word) (verdict : Bool) : State :=
  { s with
    a := witness, r := modexpRem witness s.d s.n, base := baseEnd witness s.d s.n, exp := 0
    x := x, y := y, cnt := cnt, v := verdict, st := .svNext }

section
variable {s t : State} {witness x y cnt : Word} {verdict : Bool} {steps : Nat}

theorem witnessEnd_steps_le {n S x0 : Word} (h : Claims.witnessEnd n S x0 steps x y cnt verdict) :
    steps ≤ 2 * S.toNat + 2 := by
  obtain ⟨i, hi, -, hsteps, -⟩ | ⟨-, hsteps, -⟩ := h <;> omega

theorem wtest_of_witnessEnd {n S d : Word} (hn : n ≠ 0) (hS : S ≠ 0)
    (h : Claims.witnessEnd n S (modexpRem witness d n) steps x y cnt verdict) : wtest n S d witness = some verdict := by
  rw [wtest_eq_squaringsPass d witness hn hS, witnessEnd_verdict hn h]

/-- The `Tick` of `SV_WIT`, an engine run, and a witness test on its result. -/
theorem exists_ticks_tested (hst : s.st = .svWit) (hop : s.op = 6) (hn : s.n ≠ 0) (hpos : s.s ≠ 0) (hle : s.s.toNat ≤ 63)
    {count : Nat} (hcount : romCount s.row.toNat = some count) (hwi : s.wi.toNat < count) :
    ∃ witness k steps x y cnt verdict, romWit s.row.toNat s.wi.toNat = some witness ∧ k ≤ 323 ∧
      Claims.witnessEnd s.n s.s (modexpRem witness s.d s.n) steps x y cnt verdict ∧
      ticks k s = .next (s.tested witness x y cnt verdict) := by
  obtain ⟨witness, hwit⟩ := Option.isSome_iff_exists.1 ((romWit_isSome_iff hcount).2 hwi)
  have htwo : s.op ≠ 2 := by simp [hop]
  have hthree : s.op ≠ 3 := by simp [hop]
  have hengine := ticks_of_meInit (s := { s with a := witness, st := .meInit }) rfl hn
  rw [State.leaveEngine, if_neg htwo, if_neg htwo] at hengine
  obtain ⟨steps, x, y, cnt, verdict, hend, htest⟩ := exists_witnessEnd (s := { s with
    a := witness, r := modexpRem witness s.d s.n, base := baseEnd witness s.d s.n, exp := 0, st := .wtLoad }) rfl hn hpos
  rw [State.leaveTest, if_neg hthree, if_neg hthree] at htest
  refine ⟨witness, 2 * Claims.bitLength s.d + Claims.setBits s.d + 2 + steps + 1, steps, x, y, cnt, verdict, hwit, ?_, hend,
    ?_⟩
  · have hlength := bitLength_le s.d
    have hset := setBits_le_bitLength s.d
    have hsteps : steps ≤ 2 * s.s.toNat + 2 := witnessEnd_steps_le hend
    omega
  · rw [ticks_succ_of_tick _ (Transition.svWit hst witness hwit).tick_eq, ticks_add steps hengine]
    exact htest

/-! ## The witnesses of a row -/

/-- How a run that tries the witnesses of the row from `WI` on ends (43_sieve.md R154, R158, R165): with the test of one witness
in the registers, every one before it passed, and none after it in the row if it passed too. -/
structure LastWitness (s t : State) : Prop where
  completed : t.done = true ∧ t.st = .idle
  operands : t.n = s.n ∧ t.s = s.s ∧ t.d = s.d ∧ t.row = s.row
  flags : t.ovr = s.ovr ∧ t.err = s.err
  host : t.pending = s.pending ∧ t.reads = s.reads ∧ t.draws = s.draws
  wit : romWit s.row.toNat t.wi.toNat = some t.a
  engine : t.r = modexpRem t.a s.d s.n ∧ t.base = baseEnd t.a s.d s.n ∧ t.exp = 0
  test : ∃ steps, Claims.witnessEnd s.n s.s (modexpRem t.a s.d s.n) steps t.x t.y t.cnt t.v
  earlier : ∀ j, s.wi.toNat ≤ j → j < t.wi.toNat →
    ∃ w, romWit s.row.toNat j = some w ∧ wtest s.n s.s s.d w = some true
  last : t.v = true → romCount s.row.toNat = some (t.wi.toNat + 1)

/-- The witness at `WI` passed, and the run goes on with the one after it. -/
theorem LastWitness.of_passed (hwit : romWit s.row.toNat s.wi.toNat = some witness)
    (hpass : wtest s.n s.s s.d witness = some true) (hfits : s.wi.toNat + 1 < 2 ^ 4)
    (h : LastWitness { s.tested witness x y cnt verdict with wi := s.wi + 1, st := .svWit } t) : LastWitness s t := by
  obtain ⟨hdone, hoperands, hflags, hhost, hwit', hengine, htest, hearlier, hlast⟩ := h
  refine ⟨hdone, hoperands, hflags, hhost, hwit', hengine, htest, fun j hle hlt => ?_, hlast⟩
  obtain rfl | hne := eq_or_ne j s.wi.toNat
  · exact ⟨witness, hwit, hpass⟩
  · refine hearlier j ?_ hlt
    rw [successor_toNat hfits]
    omega

/-- `SV_NEXT` after a failed witness, or after the last of its row. -/
theorem tick_svNext_of_last (hst : s.st = .svNext) (hlast : s.v = true → romCount s.row.toNat = some (s.wi.toNat + 1)) :
    tick s = .next { s with done := true, st := .idle } := by
  cases hv : s.v with
  | false => exact hv ▸ (Transition.svNextFailed hst hv).tick_eq
  | true => exact hv ▸ (Transition.svNextLast hst hv (hlast hv)).tick_eq

/-- The run ends with the witness at `WI`. -/
theorem exists_lastWitness_of_tested {k : Nat} (hrun : ticks k s = .next (s.tested witness x y cnt verdict))
    (hwit : romWit s.row.toNat s.wi.toNat = some witness)
    (hend : Claims.witnessEnd s.n s.s (modexpRem witness s.d s.n) steps x y cnt verdict)
    (hlast : verdict = true → romCount s.row.toNat = some (s.wi.toNat + 1)) :
    ∃ t, ticks (k + 1) s = .next t ∧ LastWitness s t := by
  have htick := tick_svNext_of_last (s := s.tested witness x y cnt verdict) rfl hlast
  refine ⟨_, (ticks_add 1 hrun).trans (ticks_succ_of_tick 0 htick), ?_⟩
  exact ⟨⟨rfl, rfl⟩, ⟨rfl, rfl, rfl, rfl⟩, ⟨rfl, rfl⟩, ⟨rfl, rfl, rfl⟩,
    hwit, ⟨rfl, rfl, rfl⟩, ⟨steps, hend⟩, fun _ hle hlt => absurd hle (Nat.not_le.2 hlt), hlast⟩

/-- At most 324 `Tick`s a witness: `SV_WIT`, an engine run (41_modexp.md R120), a witness test (42_witness.md R133), `SV_NEXT`. -/
theorem exists_ticks_lastWitness {left count : Nat} (hst : s.st = .svWit) (hop : s.op = 6) (hn : s.n ≠ 0) (hpos : s.s ≠ 0)
    (hle : s.s.toNat ≤ 63) (hcount : romCount s.row.toNat = some count) (hleft : s.wi.toNat + (left + 1) = count) :
    ∃ k t, k ≤ 324 * (left + 1) ∧ ticks k s = .next t ∧ LastWitness s t := by
  induction left generalizing s with
  | zero =>
    obtain ⟨_, k, _, _, _, _, _, hwit, hk, hend, hrun⟩ := exists_ticks_tested hst hop hn hpos hle hcount (by omega)
    obtain ⟨t, ht, hlast⟩ := exists_lastWitness_of_tested hrun hwit hend fun _ => hleft ▸ hcount
    exact ⟨k + 1, t, by omega, ht, hlast⟩
  | succ left ih =>
    obtain ⟨witness, k, _, x, y, cnt, verdict, hwit, hk, hend, hrun⟩ :=
      exists_ticks_tested hst hop hn hpos hle hcount (by omega)
    cases verdict with
    | false =>
      obtain ⟨t, ht, hlast⟩ := exists_lastWitness_of_tested hrun hwit hend nofun
      exact ⟨k + 1, t, by omega, ht, hlast⟩
    | true =>
      obtain ⟨-, htwelve⟩ := romCount_bounds hcount
      have hfits : s.wi.toNat + 1 < 2 ^ 4 := by omega
      have htick := (Transition.svNextMore (s := s.tested witness x y cnt true) rfl rfl count hcount
        (show s.wi.toNat + 1 ≠ count by omega) hfits).tick_eq
      have hleft' : (s.wi + 1).toNat + (left + 1) = count := by rw [successor_toNat hfits]; omega
      obtain ⟨m, t, hm, hrest, hlast⟩ := ih (s := { s.tested witness x y cnt true with wi := s.wi + 1, st := .svWit })
        rfl hop hn hpos hle hcount hleft'
      refine ⟨k + (m + 1), t, by omega, ?_, hlast.of_passed hwit (wtest_of_witnessEnd hn hpos hend) hfits⟩
      rw [ticks_add _ hrun, ticks_succ_of_tick _ htick]
      exact hrest

/-! ## The whole run -/

/-- An accepted `ISPRIME` at `SV_WIT` for the first witness of the row (43_sieve.md R158): the decomposition and the row are
there. -/
def State.selected (s : State) : State :=
  { s.accept .isprime with
    s := (decompOdd s.n).1, d := (decompOdd s.n).2, row := BitVec.ofNat 4 (wsel s.n), wi := 0, st := .svWit }

theorem selected_row_toNat (s : State) : s.selected.row.toNat = wsel s.n :=
  Nat.mod_eq_of_lt ((wsel_lt s.n).trans (by decide))

theorem ticks_selected (hquick : quickVerdict s.n = none) :
    ticks ((decompOdd s.n).1.toNat + 1 + (wsel s.n + 2) + 1) (s.accept .isprime) = .next s.selected := by
  have hdecomp := ticks_svDec0 (s := { s.accept .isprime with st := .svDec0 }) rfl (decompInDomain_of_quickVerdict hquick)
  have hscan := ticks_svSel0
    (s := { s.accept .isprime with s := (decompOdd s.n).1, d := (decompOdd s.n).2, st := .svSel0 }) rfl
  rw [ticks_succ_of_tick _ (Transition.svQuickSurvived (s := s.accept .isprime) rfl hquick).tick_eq]
  exact (ticks_add (wsel s.n + 2) hdecomp).trans hscan

/-- An `ISPRIME` that quick elimination does not decide ends with one of the witnesses of the row of `N`. -/
theorem exists_ticks_isprime (hquick : quickVerdict s.n = none) :
    ∃ k t, k < 4000 ∧ ticks k (s.accept .isprime) = .next t ∧ LastWitness s.selected t := by
  have hdomain := decompInDomain_of_quickVerdict hquick
  obtain ⟨⟨hpos, hle, -⟩, -⟩ := decompOdd_splits hdomain
  have hrow := wsel_lt s.n
  have hcount := romCount_of_lt (selected_row_toNat s ▸ hrow)
  obtain ⟨hone, htwelve⟩ := romCount_bounds hcount
  obtain ⟨left, hleft⟩ := Nat.exists_eq_add_of_le' hone
  obtain ⟨k, t, hk, hrun, hlast⟩ := exists_ticks_lastWitness (s := s.selected) (left := left) rfl rfl
    (ne_zero_of_decompInDomain hdomain) (ne_zero_of_toNat_pos hpos) hle hcount ((Nat.zero_add _).trans hleft.symm)
  exact ⟨_, t, by omega, (ticks_add k (ticks_selected hquick)).trans hrun, hlast⟩

end

/-- Settles O29: quick elimination decides in one `Tick`, or the run ends with one of at most 12 witnesses; no `Tick` changes the
verdict that it is going to leave. -/
theorem isprimeCommandCompletes : Obligations.IsprimeCommandCompletes := by
  refine ⟨decode_encode .isprime, fun s hst => ⟨exec_of_accepted hst trivial, ?_⟩⟩
  cases hquick : quickVerdict s.n with
  | some verdict =>
    obtain ⟨-, htick, hverdict⟩ := isprimeQuickCompletes s verdict hst hquick
    exact ⟨1, _, by decide, (ticks_succ_of_tick 0 htick).trans (ticks_zero _), hverdict.symm, rfl, rfl, rfl, rfl, rfl, rfl,
      rfl, rfl, rfl⟩
  | none =>
    obtain ⟨k, t, hk, hrun, hlast⟩ := exists_ticks_isprime hquick
    obtain ⟨hdone, hidle⟩ := hlast.completed
    obtain ⟨hn, -⟩ := hlast.operands
    obtain ⟨hovr, herr⟩ := hlast.flags
    obtain ⟨hpending, hreads, hdraws⟩ := hlast.host
    have hkept : IsprimeRun (s.accept .isprime) t := ticks_next_of_tick (fun _ _ => IsprimeRun.tick_next) (.start s) hrun
    have hv : t.v = isprime s.n := calc
      t.v = t.verdict := by rw [State.verdict, hidle]
      _ = isprime s.n := hkept.verdict
    exact ⟨k, t, hk, hrun, hv, hdone, hidle, hkept.op, hn, hovr, herr, hpending, hreads, hdraws⟩

/-- Settles O30: the run ends with one of the witnesses of the row, which is where it started from the first. -/
theorem isprimeLeavesItsLastWitness : Obligations.IsprimeLeavesItsLastWitness := by
  intro s hst hquick
  have hdomain := decompInDomain_of_quickVerdict hquick
  have hne := ne_zero_of_decompInDomain hdomain
  obtain ⟨⟨hpos, -, hd0, -⟩, -⟩ := decompOdd_splits hdomain
  obtain ⟨k, t, -, hrun, ⟨⟨hdone, hidle⟩, ⟨hn, hs, hd, hrow⟩, ⟨hovr, -⟩, -, hwit, ⟨hr, hbase, hexp⟩, ⟨steps, hend⟩,
    hearlier, hlast⟩⟩ := exists_ticks_isprime hquick
  have hpower : t.base = BitVec.ofNat 64 (t.a.toNat ^ 2 ^ Claims.bitLength t.d % s.n.toNat) := by
    rw [hbase, baseEnd, hd]
    exact if_neg hd0
  refine ⟨k, t, steps, hrun, hdone, hidle, ?_, ?_, ?_, ?_, hexp, ?_, ?_, ?_, ?_, ?_, hn, hovr⟩
  · rw [hs, hd]; exact decomp_of_inDomain hdomain
  · rw [hrow, selected_row_toNat]
  · rw [hrow]; exact hwit
  · rw [hr, hd]; exact modexpRem_toNat _ _ hne
  · rw [hpower, BitVec.toNat_ofNat]
    exact Nat.mod_eq_of_lt ((Nat.mod_lt _ (word_pos hne)).trans s.n.isLt)
  · rw [hs, hr]; exact hend
  · rw [hs, hd]; exact wtest_of_witnessEnd hne (ne_zero_of_toNat_pos hpos) hend
  · rw [hrow, hs, hd]; exact fun j => hearlier j (Nat.zero_le j)
  · rw [hrow]; exact hlast

end Sys2Proof.Machine
end

section
/-! SUPPORT. The bounds around the row that `wsel` selects (44_wrom.md R184), and the ROM as the host reads it (20_memory.md R52;
44_wrom.md R181 to R183). -/

namespace Sys2Proof.Machine

section
variable {n bound : Word} {r : Nat}

theorem bound_le_of_lt_wsel (h : romBound r = some bound) (hr : r < wsel n) : bound.toNat ≤ n.toNat :=
  Nat.not_lt.1 fun hlt => Nat.not_lt.2 (wsel_le_of_lt_bound h hlt) hr

theorem lt_bound_wsel (h : romBound (wsel n) = some bound) : n.toNat < bound.toNat :=
  Nat.not_le.1 fun hle => wsel_ne_of_bound_le h hle rfl

/-- One comparison of the selection: with every row before `r` passed, `n` below the bound of `r` selects `r`, and otherwise the
selection is among the later rows. -/
theorem wsel_eq_ite {limit later : Nat} (h : (romBound r).map BitVec.toNat = some limit) (hr : r ≤ wsel n)
    (hlater : r + 1 ≤ wsel n → wsel n = later) : wsel n = if n.toNat < limit then r else later := by
  obtain ⟨bound, hbound, rfl⟩ := Option.map_eq_some_iff.1 h
  split
  case isTrue hlt => exact Nat.le_antisymm (wsel_le_of_lt_bound hbound hlt) hr
  case isFalse hge =>
    have hne := wsel_ne_of_bound_le hbound (Nat.not_lt.1 hge)
    exact hlater (Nat.lt_of_le_of_ne hr hne.symm)

end

/-- Settles O24: the ranges are read off by comparing with the eleven bounds in order; the last row is left by default. -/
theorem wselIsTheFirstSatisfiedBound : Obligations.WselIsTheFirstSatisfiedBound := by
  intro n
  have hlast := Nat.le_of_lt_succ (wsel_lt n)
  refine ⟨fun r hr => ?_, ?_, ?_⟩
  · obtain ⟨bound, hbound⟩ := exists_romBound_of_lt (hr.trans_le hlast)
    exact ⟨bound, hbound, bound_le_of_lt_wsel hbound hr⟩
  · obtain hlt | heq := Nat.lt_or_eq_of_le hlast
    · obtain ⟨bound, hbound⟩ := exists_romBound_of_lt hlt
      exact .inr ⟨Nat.le_of_lt_succ hlt, bound, hbound, lt_bound_wsel hbound⟩
    · exact .inl ⟨heq, rfl⟩
  · exact wsel_eq_ite rfl (Nat.zero_le _) fun h => wsel_eq_ite rfl h fun h => wsel_eq_ite rfl h fun h =>
      wsel_eq_ite rfl h fun h => wsel_eq_ite rfl h fun h => wsel_eq_ite rfl h fun h =>
      wsel_eq_ite rfl h fun h => wsel_eq_ite rfl h fun h => wsel_eq_ite rfl h fun h =>
      wsel_eq_ite rfl h fun h => wsel_eq_ite rfl h fun h => Nat.le_antisymm hlast h

theorem romBound_strictly_increasing {r : Nat} (h : r < 10) :
    ∃ b c, romBound r = some b ∧ romBound (r + 1) = some c ∧ b.toNat < c.toNat := by
  interval_cases r <;> exact ⟨_, _, rfl, rfl, by decide⟩

section
variable (s : State) {r : Nat}

theorem hostWord_bound (hr : r ≤ 10) : s.hostWord (BitVec.ofNat 9 (0x040 + r)) = romBound r := by
  obtain ⟨bound, hbound⟩ := exists_romBound_of_lt (Nat.lt_succ_of_le hr)
  rw [hbound]
  exact hostWord_of_romWindow s ((romWindow_bound hr).trans hbound)

theorem hostWord_count (hr : r ≤ 11) :
    s.hostWord (BitVec.ofNat 9 (0x050 + r)) = some (BitVec.ofNat 64 (romWitnesses r).length) := by
  have hcount := romCount_of_lt (Nat.lt_succ_of_le hr)
  exact hostWord_of_romWindow s ((romWindow_count hr).trans (by rw [hcount, Option.map_some]))

theorem hostWord_witness {k : Nat} (hr : r ≤ 11) (hk : k ≤ 15) :
    s.hostWord (BitVec.ofNat 9 (0x100 + 16 * r + k)) = some ((romWitnesses r)[k]?.getD 0) :=
  hostWord_of_romWindow s (romWindow_witness hr hk)

end

/-- Settles O23: the literal tables by evaluating the ROM, the range of the witnesses and the host's windows in general. -/
theorem romContent : Obligations.RomContent :=
  ⟨rfl, rfl, rfl, rfl, rfl, fun _ => romBound_strictly_increasing,
    fun _ _ _ hwit => bounds_of_mem_romWitnesses (mem_romWitnesses_of_romWit hwit),
    fun s => ⟨fun _ => hostWord_bound s, fun _ => hostWord_count s, fun _ hr _ => hostWord_witness s hr⟩⟩

end Sys2Proof.Machine
end

section
/-! SUPPORT. The faults of 60_exceptions.md: what raising one leaves in `STATUS` (R208), what happens in `FAULT` (R210), and which
commands raise which (R202 to R204). -/

namespace Sys2Proof.Machine

section
variable {s t : State}

/-- A word read has no stated value only while the block is busy (20_memory.md R54). -/
theorem exists_hostWord_of_not_busy (hbusy : s.busy = false) (addr : WordIndex) : ∃ v, s.hostWord addr = some v := by
  cases hdata : s.dataWord addr with
  | some v => exact ⟨v, by rw [hostWord_of_dataWord hdata, hbusy]; rfl⟩
  | none =>
    unfold State.hostWord
    split
    · exact ⟨_, rfl⟩
    · rw [hdata]
      cases romWindow addr <;> exact ⟨_, rfl⟩

theorem hostWrite_of_fault (hst : s.st = .fault) (addr : WordIndex) (v : Word) : hostWrite addr v s = .next s := by
  rw [hostWrite_eq, whenIdle_of_fault _ hst]

/-- No event but `Reset` leaves `FAULT` or writes `ERR` there (60_exceptions.md R210). -/
theorem runEvent_of_fault (hst : s.st = .fault) {e : Event} (hne : e ≠ .reset) (h : runEvent e s = .next t) :
    t.st = .fault ∧ t.err = s.err := by
  have hbusy : s.busy = false := (busy_eq_false_iff s).2 (.inr hst)
  cases e with
  | read addr =>
    cases h
    obtain ⟨v, hword⟩ := exists_hostWord_of_not_busy hbusy addr
    rw [hostRead_of_hostWord hword]
    exact ⟨hst, rfl⟩
  | write addr v =>
    cases (hostWrite_of_fault hst addr v).symm.trans h
    exact ⟨hst, rfl⟩
  | reset => exact absurd rfl hne
  | tick =>
    cases (tick_of_not_busy hbusy).symm.trans h
    exact ⟨hst, rfl⟩
  | wait =>
    rw [runEvent, statusWord_bit_zero, hbusy] at h
    cases h
    exact ⟨hst, rfl⟩

theorem step_of_fault (hst : s.st = .fault) (hne : s.pending.head? ≠ some .reset) (h : step s = .next t) :
    t.st = .fault ∧ t.err = s.err := by
  cases hpending : s.pending with
  | nil =>
    rw [step, stepEvent, hpending] at h
    cases (tick_of_not_busy ((busy_eq_false_iff s).2 (.inr hst))).symm.trans h
    exact ⟨hst, rfl⟩
  | cons e rest =>
    rw [step_of_pending hpending] at h
    exact runEvent_of_fault (s := { s with pending := rest }) hst (fun he => hne (by rw [hpending, he]; rfl)) h

/-- The low byte of `STATUS` with every flag 0 (10_state.md R38). -/
theorem statusWord_lowByte (hbusy : s.busy = false) (hdone : s.done = false) (hv : s.v = false) (hovr : s.ovr = false) :
    s.statusWord.extractLsb 7 0 = s.err ++ 0#4 := by
  refine BitVec.eq_of_getLsbD_eq fun i hi => ?_
  rw [BitVec.getLsbD_extractLsb, statusWord_getLsbD, BitVec.getLsbD_append, hbusy, hdone, hv, hovr]
  interval_cases i <;> rfl

end

/-- Settles O8: the fields of `STATUS` are those of the state that the fault leaves. -/
theorem faultEntryAndItsStatusWord : Obligations.FaultEntryAndItsStatusWord := by
  intro s code _ _
  obtain ⟨-, hdone, -, -, herr, -, hop, -⟩ := statusWordFields (s.raiseFault code)
  refine ⟨rfl, statusWord_bit_zero, hdone, herr, hop, fun hv hovr => ?_⟩
  rw [statusWord_lowByte (s := s.raiseFault code) rfl rfl hv hovr, BitVec.toNat_append]
  simp [Nat.shiftLeft_eq, Nat.mul_comm]

/-- Settles O9: `FAULT` is not busy, so every read has a value, and the gate of a host write drops it there. -/
theorem faultStateIsTerminal : Obligations.FaultStateIsTerminal := by
  intro s hst
  have hbusy : s.busy = false := (busy_eq_false_iff s).2 (.inr hst)
  refine ⟨tick_of_not_busy hbusy, hostWrite_of_fault hst, fun addr => ?_, fun t hstep hne => step_of_fault hst hne hstep⟩
  obtain ⟨v, hword⟩ := exists_hostWord_of_not_busy hbusy addr
  exact ⟨v, hword, hostRead_of_hostWord hword⟩

/-- Settles O7: each clause is the fault of one command, from that command's own statement. -/
theorem preconditionFaultsOfEachCommand : Obligations.PreconditionFaultsOfEachCommand := by
  intro s hst
  obtain ⟨-, hmulmod⟩ := mulmodCommandCompletes
  obtain ⟨-, hmodexp⟩ := modexpCommandCompletes
  obtain ⟨-, hwtest⟩ := wtestCommandCompletes
  obtain ⟨-, hdecomp⟩ := decompCommandCompletes
  obtain ⟨hzeroModulus, hzeroS, -⟩ := hwtest s hst
  exact ⟨fun hn => ⟨(hmulmod s hst).1 hn, (hmodexp s hst).1 hn, hzeroModulus hn⟩, hzeroS, (hdecomp s hst).1⟩

end Sys2Proof.Machine
end

section
/-! SUPPORT. `Reset` as a step of the machine (70_reset_and_hazards.md R230, R231). -/

namespace Sys2Proof.Machine

/-- A step whose event is `Reset` is the effect of `Reset`, with the event taken off the list (log 9). -/
theorem step_of_reset {s : State} {rest : List Event} (h : s.pending = .reset :: rest) :
    step s = .next { s.resetBlock with pending := rest } := step_of_pending h

/-- Reset leaves every field of `STATUS` 0 (10_state.md R38, R45). -/
@[simp] theorem reset_statusWord : State.reset.statusWord = 0 := rfl

/-- Settles O43: the step is the effect of `Reset`, which takes every item of the block from the reset state. -/
theorem resetClearsTheBlock : Obligations.ResetClearsTheBlock :=
  ⟨fun _ _ h => step_of_reset h, reset_statusWord⟩

end Sys2Proof.Machine
end
